-- ==== Sys2Proof/Word.lean ====
section
/-! DEFINITION. The word types of the block (spec/00_scope.md R9, spec/10_state.md R12 to R17). -/

namespace Sys2Proof

/-- A byte of `IN`, of `OUT` or of a string (R9: "Character" means byte). -/
abbrev Byte := BitVec 8

/-- A regular 12-bit code, and a key of the dictionary (R12, R25). -/
abbrev Code := BitVec 12

/-- One element of the code stream (R22): a regular code or a wide tail word. -/
abbrev CodeWord := BitVec 16

/-- The width of `dict_size`, `M` and `key` (R13, R16, R17). -/
abbrev Size := BitVec 13

/-- A string: a finite sequence of bytes (R9). -/
abbrev Str := List Byte

end Sys2Proof
end

