-- ==== Sys2Proof/Syntax.lean ====
section
/-! DEFINITION. The operations of the block: one constructor per row of spec/opcode_table.json
(spec/30_encoding.md R75, R76, R77). -/

namespace Sys2Proof

/-- The five faults (spec/60_exceptions.md R170). -/
inductive RunFault where
  | sourceUnavailable
  | configurationError
  | unknownSeedCode
  | internalInconsistency
  | malformedLength
deriving DecidableEq, Repr

/-- Where the string that `DICT.LOOKUP` returns goes: the register of R17 its caller names (R121, R122, R123).
DESIGN CHOICE, log 14. -/
inductive EntryReg where
  | prevEntry
  | currEntry
  | emitted
deriving DecidableEq, Repr

/-- The column `format` of opcode_table.json (R60, R77). -/
inductive Format where
  | none
  | t24
  | w16
  | cw
deriving DecidableEq, Repr

/-- One constructor per row of spec/opcode_table.json. An operand that the stream carries is the field the row's
pattern gives; an operand that the calling operation passes (R104, R106, R108, R142, R180) is an argument. -/
inductive Instr where
  | runStart
  | runCfgchk
  | runDone
  | runFault (f : RunFault) (info : Nat)
  | xEmpty
  | xOne
  | xPair16 (w : CodeWord)
  | xTriple (a b : Code)
  | xTail1 (w : CodeWord)
  | xTail2
  | dictInit
  | dictLookup (dst : EntryReg) (k : Code)
  | dictReset
  | dictInsert (t : Str)
  | dictGrow (t : Str)
  | dSeed (c : CodeWord)
  | dKnown (c : CodeWord)
  | dSelfref (c : CodeWord)
  | dSeedLegal (c : Byte)
  | dKnownStatic (c : Byte)
  | dSelfrefStatic (h : BitVec 4) (c : Code)
  | dDynamic (c : Code)
  | outClear
  | outAppend (t : Str)
  | outCommit
  | outDiscard
deriving DecidableEq, Repr

/-- The format of an operation's row (R77): `none` consumes no bits of the stream. -/
def Instr.format : Instr → Format
  | .xPair16 _ => .w16
  | .xTriple _ _ => .t24
  | .xTail1 _ => .w16
  | .dSeed _ => .cw
  | .dKnown _ => .cw
  | .dSelfref _ => .cw
  | .dSeedLegal _ => .cw
  | .dKnownStatic _ => .cw
  | .dSelfrefStatic _ _ => .cw
  | .dDynamic _ => .cw
  | .runStart => .none
  | .runCfgchk => .none
  | .runDone => .none
  | .runFault _ _ => .none
  | .xEmpty => .none
  | .xOne => .none
  | .xTail2 => .none
  | .dictInit => .none
  | .dictLookup _ _ => .none
  | .dictReset => .none
  | .dictInsert _ => .none
  | .dictGrow _ => .none
  | .outClear => .none
  | .outAppend _ => .none
  | .outCommit => .none
  | .outDiscard => .none

end Sys2Proof
end

