-- ==== Sys2Proof/WellFormed.lean ====
section
/-! DEFINITION. Which operands an operation may have, as far as the operand alone shows it (spec/30_encoding.md R76,
spec/60_exceptions.md R170, spec/41_dictionary_engine.md R102, spec/43_output_accumulator.md R142). -/

namespace Sys2Proof

/-- The values `FAULT_INFO` can take with each fault (R170 with R121, R122, R153). -/
def RunFault.infoOk : RunFault → Nat → Bool
  | .sourceUnavailable, n => n == 0
  | .configurationError, n => n < 8 || (12 < n && n < 16)
  | .unknownSeedCode, n => 256 ≤ n && n < 65536
  | .internalInconsistency, n => 256 ≤ n && n < 4096
  | .malformedLength, n => n == 1

/-- The operand check. -/
def Instr.wf : Instr → Bool
  | .runFault f info => f.infoOk info
  | .dictInsert t => !t.isEmpty
  | .dictGrow t => !t.isEmpty
  | .outAppend t => !t.isEmpty
  | .dKnown c => c.toNat < 4096
  | .dSelfref c => 256 ≤ c.toNat
  | .dSelfrefStatic h _ => h != 0
  | .dDynamic c => 256 ≤ c.toNat
  | .runStart => true
  | .runCfgchk => true
  | .runDone => true
  | .xEmpty => true
  | .xOne => true
  | .xPair16 _ => true
  | .xTriple _ _ => true
  | .xTail1 _ => true
  | .xTail2 => true
  | .dictInit => true
  | .dictLookup _ _ => true
  | .dictReset => true
  | .dSeed _ => true
  | .dSeedLegal _ => true
  | .dKnownStatic _ => true
  | .outClear => true
  | .outCommit => true
  | .outDiscard => true

end Sys2Proof
end

