-- ==== Sys2Proof/Decode.lean ====
section
/-! DEFINITION. From bits to operations and back (spec/30_encoding.md R60 to R65, R76; spec/20_memory.md R41).
The stream is not self-describing (R64): which operation a word is depends on where the sequencer stands, so the
decoder takes that place as an argument (`Slot`). -/

namespace Sys2Proof

/-! ### Field assembly (R65) -/

/-- "code_A = (b0 << 4) | (b1 >> 4)" (R65). -/
def codeA (b0 b1 : Byte) : Code := (b0.setWidth 12 <<< 4) ||| (b1.setWidth 12 >>> 4)

/-- "code_B = ((b1 & 0x0F) << 8) | b2" (R65). -/
def codeB (b1 b2 : Byte) : Code := ((b1 &&& 0x0F#8).setWidth 12 <<< 8) ||| b2.setWidth 12

/-- "w16 = (hi << 8) | lo" (R65), `hi` the byte at the lower address (R62). -/
def wide (hi lo : Byte) : CodeWord := (hi.setWidth 16 <<< 8) ||| lo.setWidth 16

/-- `zext_16` of a regular code (R63, R65). -/
def zext16 (c : Code) : CodeWord := c.setWidth 16

/-- The code word of range (a) of R76 whose low byte is `c`. -/
def lowWord (c : Byte) : CodeWord := c.setWidth 16

/-- The code word of range (b) of R76, `c[15:12] = h`. -/
def highWord (h : BitVec 4) (c : Code) : CodeWord := (h.setWidth 16 <<< 12) ||| c.setWidth 16

/-! ### Field packing (R72 for `T24`, R62 for `W16`) -/

/-- "b0 = c2g >> 4" (R72). -/
def packHigh (a : Code) : Byte := (a >>> 4).setWidth 8

/-- "b1 = ((c2g & 0xF) << 4) | (c2g+1 >> 8)" (R72). -/
def packMid (a b : Code) : Byte := ((a &&& 0xF#12).setWidth 8 <<< 4) ||| (b >>> 8).setWidth 8

/-- "b2 = c2g+1 & 0xFF" (R72). -/
def packLow (b : Code) : Byte := b.setWidth 8

/-- A 16-bit word as its two bytes, the more significant one at the lower address (R62, R41). -/
def wordBytes (w : CodeWord) : List Byte := [(w >>> 8).setWidth 8, w.setWidth 8]

/-! ### The decoder -/

/-- Where the sequencer stands when it decodes: what the column "selected by" of R75 and R76 names beside the bits. -/
inductive Slot where
  /-- The whole input buffer, whose length alone chooses the first operation of the extractor (R64, R80). -/
  | buffer
  /-- `T24` at byte `bi` (X.TRIPLE). -/
  | triple
  /-- `W16` at byte 0 of a 2-byte buffer (X.PAIR16). -/
  | pair
  /-- `W16` at byte `N-2` after the last triple (X.TAIL1). -/
  | tail1
  /-- `CW` at `ci = 0`, by the static ranges of R76. -/
  | seedWord
  /-- `CW` at `ci >= 1`, by the static ranges of R76. -/
  | loopWord
  /-- `CW` at `ci = 0`, the row D.SEED of R75. -/
  | seedStep
  /-- `CW` at `ci >= 1` with `dict_size = size`: the rows D.KNOWN and D.SELFREF of R75. -/
  | loopStep (size : Size)
  /-- An operation that consumes no bits of the stream (R77): the sequencer or the calling operation selects it,
  with its operands. -/
  | bare (i : Instr)
deriving DecidableEq, Repr

/-- Why bytes are no operation in a slot. The stream itself has no illegal encoding (R67). -/
inductive DecodeError where
  /-- The slot takes another number of bytes. -/
  | wrongLength
  /-- The operation has a format of its own and is not selected without bits. -/
  | needsBits
deriving DecidableEq, Repr

/-- R76 at `ci = 0`: range (a) is a legal seed, range (c) is D.DYNAMIC, range (b) is only D.SEED. -/
def decodeSeedWord (c : CodeWord) : Instr :=
  if c.toNat < 256 then .dSeedLegal (c.setWidth 8)
  else if c.toNat < 4096 then .dDynamic (c.setWidth 12)
  else .dSeed c

/-- R76 at `ci >= 1`: range (a) is D.KNOWN, range (b) is D.SELFREF, range (c) is decided by `dict_size`. -/
def decodeLoopWord (c : CodeWord) : Instr :=
  if c.toNat < 256 then .dKnownStatic (c.setWidth 8)
  else if c.toNat < 4096 then .dDynamic (c.setWidth 12)
  else .dSelfrefStatic ((c >>> 12).setWidth 4) (c.setWidth 12)

/-- R75 at `ci >= 1`: the presence test of R103 chooses. -/
def decodeLoopStep (size : Size) (c : CodeWord) : Instr :=
  if c.toNat < size.toNat then .dKnown c else .dSelfref c

/-- The triple of R61. -/
def decodeTriple (b0 b1 b2 : Byte) : Instr := .xTriple (codeA b0 b1) (codeB b1 b2)

/-- The decoder, total on any bytes. -/
def decode : Slot → List Byte → Except DecodeError Instr
  | .buffer, [] => .ok .xEmpty
  | .buffer, [_] => .ok .xOne
  | .buffer, [hi, lo] => .ok (.xPair16 (wide hi lo))
  | .buffer, b0 :: b1 :: b2 :: _ => .ok (decodeTriple b0 b1 b2)
  | .triple, [b0, b1, b2] => .ok (decodeTriple b0 b1 b2)
  | .pair, [hi, lo] => .ok (.xPair16 (wide hi lo))
  | .tail1, [hi, lo] => .ok (.xTail1 (wide hi lo))
  | .seedWord, [hi, lo] => .ok (decodeSeedWord (wide hi lo))
  | .loopWord, [hi, lo] => .ok (decodeLoopWord (wide hi lo))
  | .seedStep, [hi, lo] => .ok (.dSeed (wide hi lo))
  | .loopStep size, [hi, lo] => .ok (decodeLoopStep size (wide hi lo))
  | .bare i, bs => if i.format = .none then (if bs = [] then .ok i else .error .wrongLength) else .error .needsBits
  | _, _ => .error .wrongLength

/-! ### The encoder -/

/-- The bytes of an operation's word: `T24` by R72, `W16` and `CW` by R62 (a `CW` is laid out like a `W16`: log 8);
an operation without a format has none. -/
def encode : Instr → List Byte
  | .xTriple a b => [packHigh a, packMid a b, packLow b]
  | .xPair16 w => wordBytes w
  | .xTail1 w => wordBytes w
  | .dSeed c => wordBytes c
  | .dKnown c => wordBytes c
  | .dSelfref c => wordBytes c
  | .dSeedLegal c => wordBytes (lowWord c)
  | .dKnownStatic c => wordBytes (lowWord c)
  | .dSelfrefStatic h c => wordBytes (highWord h c)
  | .dDynamic c => wordBytes (zext16 c)
  | .runStart => []
  | .runCfgchk => []
  | .runDone => []
  | .runFault _ _ => []
  | .xEmpty => []
  | .xOne => []
  | .xTail2 => []
  | .dictInit => []
  | .dictLookup _ _ => []
  | .dictReset => []
  | .dictInsert _ => []
  | .dictGrow _ => []
  | .outClear => []
  | .outAppend _ => []
  | .outCommit => []
  | .outDiscard => []

/-- `PACK` (R72), a helper for writing streams: the triples of a list of regular codes; a last code without a partner
has no packed form. -/
def pack : List Code → List Byte
  | a :: b :: rest => packHigh a :: packMid a b :: packLow b :: pack rest
  | _ => []

/-- Whether the sequencer, standing at the slot, can select the operation (R75, R76). -/
def Slot.selects : Slot → Instr → Bool
  | .buffer, .xEmpty => true
  | .buffer, .xPair16 _ => true
  | .buffer, .xTriple _ _ => true
  | .triple, .xTriple _ _ => true
  | .pair, .xPair16 _ => true
  | .tail1, .xTail1 _ => true
  | .seedWord, .dSeedLegal _ => true
  | .seedWord, .dDynamic _ => true
  | .seedWord, .dSeed c => 4096 ≤ c.toNat
  | .loopWord, .dKnownStatic _ => true
  | .loopWord, .dDynamic _ => true
  | .loopWord, .dSelfrefStatic _ _ => true
  | .seedStep, .dSeed _ => true
  | .loopStep size, .dKnown c => c.toNat < size.toNat
  | .loopStep size, .dSelfref c => size.toNat ≤ c.toNat
  | .bare j, i => decide (j = i) && decide (i.format = .none)
  | _, _ => false

/-! ### The host's question about one word of the table -/

/-- Byte `i` of a `w` numbered as the table numbers a format's bits, bit 0 the last bit of the stream order (R61). -/
def tableByte (w i : Nat) : Byte := BitVec.ofNat 8 (w / 256 ^ i)

/-- The slot and the bytes of a word of the table (log 8, log 9): 24 bits are a triple, 16 bits a code word at `ci = 0`,
and no bits or 8 bits a buffer of 0 or 1 bytes. -/
def tableWord (nbits w : Nat) : Option (Slot × List Byte) :=
  match nbits with
  | 0 => some (.buffer, [])
  | 8 => some (.buffer, [tableByte w 0])
  | 16 => some (.seedWord, [tableByte w 1, tableByte w 0])
  | 24 => some (.triple, [tableByte w 2, tableByte w 1, tableByte w 0])
  | _ => none

/-- The operation the decoder reads from a word numbered as opcode_table.json numbers it. -/
def decodeTableWord (nbits w : Nat) : Option Instr :=
  match tableWord nbits w with
  | none => none
  | some (slot, bytes) =>
    match decode slot bytes with
    | .ok i => some i
    | .error _ => none

end Sys2Proof
end

