-- ==== Sys2Proof/Config.lean ====
section
/-! DEFINITION. What an implementation fixes (spec/00_scope.md R8) and the free values: what the spec leaves
unspecified after an operation has no body here, so nothing can be proved of it. -/

namespace Sys2Proof.Config

/-- `N_INIT`, the number of initial entries (R8). -/
abbrev nInit : Nat := 256

/-- `DICT_SLOTS`, the number of dictionary slots (R8, R25). -/
abbrev dictSlots : Nat := 4096

/-- The smallest and the largest legal `DICT_EXP` (R6, R27). -/
abbrev minDictExp : Nat := 8
abbrev maxDictExp : Nat := 12

/-- The value `CFG.DICT_EXP` wakes with, the one this hardware takes (R6, R33). -/
abbrev defaultDictExp : BitVec 4 := 12

/-- FREE VALUE number `n` of a register of `w` bits (log 2). -/
opaque freeBits (w : Nat) (n : Nat) : BitVec w

/-- FREE VALUE number `n` of a natural register (log 2, log 3). -/
opaque freeNat (n : Nat) : Nat

/-- FREE VALUE number `n` of a string (log 2, log 3). -/
opaque freeString (n : Nat) : Str

end Sys2Proof.Config
end

