-- ==== Sys2Proof/Machine/State.lean ====
section
/-! DEFINITION. The state of the block as plain data (spec/10_state.md R10 to R30), the reasons the model can stop,
and the state after power-on reset (R33, R200). -/

namespace Sys2Proof.Machine

/-- The five address spaces (R20). -/
inductive Space where
  | input
  | codes
  | dict
  | snap
  | output
deriving DecidableEq, Repr

/-- Why the model stops. None of these is a fault of the block (those are next states, R180); no run reaches one (R31,
R56), and each is safe: the model stops where a real block would do something the spec does not say. -/
inductive Fault where
  /-- Raised by a read of an address at which the space has no cell (R56): `IN` at or above `IN_LEN`, `CODES` at or
  above `N_CODES`, `DICT` at or above `dict_size`. Safe. -/
  | readOutside (space : Space) (a : Nat)
  /-- Raised by a read of a cell that nothing has written (R31). Safe. -/
  | readUnwritten (space : Space) (a : Nat)
  /-- Raised by a write where the space has no cell (R56): a dictionary slot above 4095, the code word before the
  first. Safe. -/
  | writeOutside (space : Space) (a : Nat)
  /-- Raised by `first` of an empty string, which R9 leaves without a value. Safe. -/
  | firstOfEmpty
deriving DecidableEq, Repr

/-- Why the model refuses an operation. -/
inductive Refusal where
  /-- Raised by `exec` for an operation that has no meaning yet. Safe. -/
  | notModelled (mnemonic : String)
deriving DecidableEq, Repr

/-- `STATUS.PHASE` (R29); the value 7 is never produced. -/
inductive Phase where
  | idle
  | extract
  | config
  | seed
  | loop
  | done
  | fault
deriving DecidableEq, Repr

/-- The states of the top-level machine (spec/44_run_control.md R156). `S_START` is merged into the three states that
wait for `CTRL.START` (log 6); the last three states of a main-loop step remember the outcome of the presence test,
true for Case A. -/
inductive Fsm where
  | sIdle
  | sXsel
  | sXpair
  | sXwalk
  | sXtail
  | sCfg
  | sInit
  | sSeed
  | sFetch
  | sClass
  | sEmit (known : Bool)
  | sGrow (known : Bool)
  | sNext (known : Bool)
  | sDone
  | sFault
deriving DecidableEq, Repr

/-- The states of the overflow-reset machine (spec/41_dictionary_engine.md R109). -/
inductive GrowFsm where
  | gIdle
  | gCheck
  | gReset
  | gWrite
deriving DecidableEq, Repr

/-- Bytes at addresses, in canonical form: addresses strictly rising. An unlisted address has no value (log 4). -/
abbrev Memory := List Host.Cell

/-- Code words at addresses, in the same form (R22). -/
abbrev CodeCells := List (Nat × CodeWord)

/-- Strings at keys, in the same form; an unlisted key below 256 reads as its identity entry and is never listed with
that entry (R23, R24, R33). -/
abbrev DictCells := List (Nat × Str)

/-- The working registers of R17. -/
structure Work where
  c : CodeWord
  prevEntry : Str
  currEntry : Str
  newEntry : Str
  emitted : Str
  key : Size
  b0 : Byte
  b1 : Byte
  b2 : Byte
  codeA : Code
  codeB : Code
  w16 : CodeWord
deriving DecidableEq, Repr

/-- The complete state (R10). -/
structure State where
  /-- `CFG.DICT_EXP` (R27). -/
  dictExp : BitVec 4
  /-- `CTRL.START`: a write of 1 the core has not yet acted on (R28). -/
  start : Bool
  /-- `CTRL.SRC_OK` (R28). -/
  srcOk : Bool
  /-- `STATUS.PHASE` (R29). -/
  phase : Phase
  /-- `STATUS.FAULT_CODE` (R29). -/
  faultCode : Option RunFault
  /-- `STATUS.OUT_VALID` (R29). -/
  outValid : Bool
  /-- `FAULT_INFO` (R30). -/
  faultInfo : BitVec 16
  /-- `IN_LEN` (R30). -/
  inLen : Nat
  /-- `N_CODES` (R30). -/
  nCodes : Nat
  /-- `OUT_LEN` (R30). -/
  outLen : Nat
  /-- Byte index of the extractor (R14). -/
  bi : Nat
  /-- Code index of the decoder (R15). -/
  ci : Nat
  /-- `prev_code` (R12). -/
  prevCode : Code
  /-- `dict_size` (R13). -/
  dictSize : Size
  /-- `M` (R16). -/
  maxSize : Size
  /-- The space `IN` (R21). -/
  inMem : Memory
  /-- The space `CODES` (R22). -/
  codes : CodeCells
  /-- The space `DICT` (R23). -/
  dict : DictCells
  /-- The space `OUT` (R26). -/
  outMem : Memory
  /-- The working registers (R17). -/
  work : Work
  /-- The state of the top-level machine (R156). -/
  fsm : Fsm
  /-- The state of the overflow-reset machine (R109). -/
  grow : GrowFsm
  /-- The model's own: the number of the next free value (log 19). -/
  freeCount : Nat
deriving DecidableEq, Repr

/-- The working registers after power-on: DESIGN CHOICE, log 1. -/
def Work.zero : Work where
  c := 0
  prevEntry := []
  currEntry := []
  newEntry := []
  emitted := []
  key := 0
  b0 := 0
  b1 := 0
  b2 := 0
  codeA := 0
  codeB := 0
  w16 := 0

/-- The machine right after power-on reset (R33, R200). The spec states `phase`, `faultCode`, `outValid`, `dictExp` and
the identity entries of `DICT` and `SNAP`; every other value is a DESIGN CHOICE, log 1. -/
def State.reset : State where
  dictExp := Config.defaultDictExp
  start := false
  srcOk := false
  phase := .idle
  faultCode := none
  outValid := false
  faultInfo := 0
  inLen := 0
  nCodes := 0
  outLen := 0
  bi := 0
  ci := 0
  prevCode := 0
  dictSize := 0
  maxSize := 0
  inMem := []
  codes := []
  dict := []
  outMem := []
  work := Work.zero
  fsm := .sIdle
  grow := .gIdle
  freeCount := 0

end Sys2Proof.Machine
end

