-- ==== Sys2Proof/Machine/Ops.lean ====
section
/-! DEFINITION. The named operations over the address spaces and registers, taking a fault (spec/60_exceptions.md
R180), and the one way out of it, the start of a fresh run (spec/44_run_control.md R151, R158). -/

namespace Sys2Proof.Machine

/-- A value, or the reason the model stops. -/
abbrev Res (α : Type) := Host.Outcome α Fault Refusal

/-- Go on with the value, or stop for the same reason. -/
def andThen {α β : Type} (x : Res α) (f : α → Res β) : Res β :=
  match x with
  | .next a => f a
  | .fault r => .fault r
  | .refused r => .refused r

/-! ### Cells -/

/-- The value listed at an address. -/
def cellsRead {α : Type} : List (Nat × α) → Nat → Option α
  | [], _ => none
  | (k, v) :: rest, a => if k = a then some v else cellsRead rest a

/-- List a value at an address, keeping the addresses rising. -/
def cellsPut {α : Type} : List (Nat × α) → Nat → α → List (Nat × α)
  | [], a, v => [(a, v)]
  | (k, x) :: rest, a, v =>
    if a < k then (a, v) :: (k, x) :: rest
    else if a = k then (a, v) :: rest
    else (k, x) :: cellsPut rest a v

/-- List nothing at an address. -/
def cellsDrop {α : Type} : List (Nat × α) → Nat → List (Nat × α)
  | [], _ => []
  | (k, x) :: rest, a => if k = a then cellsDrop rest a else (k, x) :: cellsDrop rest a

/-- All addresses are above `lo`, strictly rising. -/
def cellsAbove {α : Type} (lo : Nat) : List (Nat × α) → Bool
  | [] => true
  | (k, _) :: rest => decide (lo < k) && cellsAbove k rest

/-- Addresses strictly rising. -/
def cellsRising {α : Type} : List (Nat × α) → Bool
  | [] => true
  | (k, _) :: rest => cellsAbove k rest

/-- The canonical form of `IN` and `OUT`. No entry can equal what an unlisted address reads as, which is no value. -/
def Memory.wf (m : Memory) : Bool := cellsRising m

/-- The canonical form of `CODES`. -/
def CodeCells.wf (m : CodeCells) : Bool := cellsRising m

/-- Bytes written one after the other from an address up (R142). -/
def memWriteBytes (m : Memory) (a : Nat) : List Byte → Memory
  | [] => m
  | b :: bs => memWriteBytes (cellsPut m a b) (a + 1) bs

/-- `MemRead(space, a, n)` over bytes (R9), none when one of the cells has no value. -/
def memReadBytes (m : Memory) (a : Nat) : Nat → Option (List Byte)
  | 0 => some []
  | n + 1 =>
    match cellsRead m a, memReadBytes m (a + 1) n with
    | some b, some bs => some (b :: bs)
    | _, _ => none

/-! ### SNAP and DICT -/

/-- `SNAP[k] = [k]` (R24). -/
def snap (k : Nat) : Str := [BitVec.ofNat 8 k]

/-- What an unlisted slot reads as: its identity entry below 256, nothing above (R23, R33). -/
def dictUnlisted (k : Nat) : Option Str := if k < Config.nInit then some (snap k) else none

/-- `DICT[k]`, live or stale. -/
def dictRead (d : DictCells) (k : Nat) : Option Str :=
  match cellsRead d k with
  | some t => some t
  | none => dictUnlisted k

/-- `DICT[k] <- t`; writing what an unlisted slot reads as unlists it. -/
def dictWrite (d : DictCells) (k : Nat) (t : Str) : DictCells :=
  if dictUnlisted k = some t then cellsDrop d k else cellsPut d k t

/-- No slot is listed with what it reads as unlisted. -/
def dictMinimal (d : DictCells) : Bool := d.all (fun e => dictUnlisted e.1 != some e.2)

/-- The canonical form of `DICT`. -/
def DictCells.wf (d : DictCells) : Bool := cellsRising d && dictMinimal d

/-! ### The output accumulator (spec/43_output_accumulator.md) -/

/-- R140. -/
def outClear (s : State) : State := { s with outMem := [], outLen := 0, outValid := false }

/-- R142. -/
def outAppend (t : Str) (s : State) : State :=
  { s with outMem := memWriteBytes s.outMem s.outLen t, outLen := s.outLen + t.length }

/-- R143. -/
def outCommit (s : State) : State := { s with outValid := true }

/-- R144: "the content of `OUT` and `OUT_LEN` become unspecified": free values (log 3). -/
def outDiscard (s : State) : State :=
  { s with
    outValid := false
    outMem := memWriteBytes [] 0 (Config.freeString s.freeCount)
    outLen := Config.freeNat s.freeCount
    freeCount := s.freeCount + 1 }

/-! ### Taking a fault -/

/-- `raise F(info)`, the effect of RUN.FAULT (R180): "`FAULT_INFO <- info[15:0]`", and the block stops in `S_FAULT`
(R156). -/
def raiseFault (f : RunFault) (info : Nat) (s : State) : State :=
  let t := outDiscard { s with faultCode := some f, faultInfo := BitVec.ofNat 16 info }
  { t with phase := .fault, fsm := .sFault, grow := .gIdle }

/-! ### The start of a run, the only way out of a fault (R183) -/

/-- The working registers when a run starts: "unspecified" (R33), free values from number `n` on (log 2). -/
def freeWork (n : Nat) : Work where
  c := Config.freeBits 16 n
  prevEntry := Config.freeString n
  currEntry := Config.freeString (n + 1)
  newEntry := Config.freeString (n + 2)
  emitted := Config.freeString (n + 3)
  key := Config.freeBits 13 n
  b0 := Config.freeBits 8 n
  b1 := Config.freeBits 8 (n + 1)
  b2 := Config.freeBits 8 (n + 2)
  codeA := Config.freeBits 12 n
  codeB := Config.freeBits 12 (n + 1)
  w16 := Config.freeBits 16 (n + 1)

/-- What RUN.START leaves of the run state of an earlier run: nothing (R34, R158). The cells of `CODES` are unwritten,
`DICT` holds its identity entries, and the registers that R33 calls unspecified or unwritten after RUN.START hold
free values (log 2). -/
def forgetRun (s : State) : State :=
  { s with
    faultInfo := Config.freeBits 16 (s.freeCount + 2)
    ci := Config.freeNat s.freeCount
    prevCode := Config.freeBits 12 (s.freeCount + 2)
    dictSize := Config.freeBits 13 (s.freeCount + 1)
    maxSize := Config.freeBits 13 (s.freeCount + 2)
    codes := []
    dict := []
    work := freeWork s.freeCount
    grow := .gIdle
    freeCount := s.freeCount + 4 }

/-- The lines of R151 before its test of `CTRL.SRC_OK`. -/
def beginRun (s : State) : State :=
  let t := outClear { forgetRun s with faultCode := none }
  { t with bi := 0, nCodes := 0, phase := .extract }

/-- "effective only when `STATUS.PHASE` is `IDLE`, `DONE` or `FAULT`" (R151): the core is not busy (R157). -/
def Phase.quiet : Phase → Bool
  | .idle => true
  | .done => true
  | .fault => true
  | .extract => false
  | .config => false
  | .seed => false
  | .loop => false

end Sys2Proof.Machine
end

