-- ==== Sys2Proof/Machine/Flags.lean ====
section
/-! DEFINITION. The block has no flags (spec/10_state.md R18). It branches on two conditions, computed and consumed
inside one step. -/

namespace Sys2Proof.Machine

/-- "A 16-bit code word `c` is *present* when `c < dict_size`" (R103), on all 16 bits of `c`. -/
abbrev present (s : State) (c : CodeWord) : Prop := c.toNat < s.dictSize.toNat

/-- The same test of `prev_code` in the prelude (R122). -/
abbrev prevPresent (s : State) : Prop := s.prevCode.toNat < s.dictSize.toNat

/-- "`full = (dict_size >= M)`" (R105). -/
abbrev full (s : State) : Prop := s.maxSize.toNat ≤ s.dictSize.toNat

end Sys2Proof.Machine
end

