-- ==== Sys2Proof/Machine/Operands.lean ====
section
/-! DEFINITION. Every read of an operand: a byte of `IN`, a code word of `CODES`, a string of `DICT`, the first byte of
a string (spec/20_memory.md R40, R46, R56). -/

namespace Sys2Proof.Machine

/-- `IN[a]` (R21): a cell exists below `IN_LEN`. -/
def readIn (s : State) (a : Nat) : Res Byte :=
  if a < s.inLen then
    match cellsRead s.inMem a with
    | some b => .next b
    | none => .fault (.readUnwritten .input a)
  else .fault (.readOutside .input a)

/-- `CODES[i]` (R22): a cell exists below `N_CODES`. -/
def readCode (s : State) (i : Nat) : Res CodeWord :=
  if i < s.nCodes then
    match cellsRead s.codes i with
    | some c => .next c
    | none => .fault (.readUnwritten .codes i)
  else .fault (.readOutside .codes i)

/-- `DICT.LOOKUP(k)` (R104): "return `DICT[k]` (the whole string)", for a live key. -/
def lookup (s : State) (k : Nat) : Res Str :=
  if k < s.dictSize.toNat then
    match dictRead s.dict k with
    | some t => .next t
    | none => .fault (.readUnwritten .dict k)
  else .fault (.readOutside .dict k)

/-- "`first(s) = s[0]` (defined only when `len(s) >= 1`)" (R9). -/
def first : Str → Res Byte
  | [] => .fault .firstOfEmpty
  | b :: _ => .next b

/-- Two consecutive bytes of `IN`, lower address first. -/
def readPair (s : State) (a : Nat) : Res (Byte × Byte) :=
  andThen (readIn s a) fun hi => andThen (readIn s (a + 1)) fun lo => .next (hi, lo)

/-- `CODES[i] <- v`. -/
def writeCode (i : Nat) (v : CodeWord) (s : State) : State := { s with codes := cellsPut s.codes i v }

/-- The working registers with a string in one of those a lookup can return to (log 14). -/
def Work.setEntry (dst : EntryReg) (t : Str) (w : Work) : Work :=
  match dst with
  | .prevEntry => { w with prevEntry := t }
  | .currEntry => { w with currEntry := t }
  | .emitted => { w with emitted := t }

/-- Write one of the registers a lookup can return to. -/
def writeEntry (dst : EntryReg) (t : Str) (s : State) : State := { s with work := s.work.setEntry dst t }

/-- Latch the code word being decoded (R17, the first line of R121 and of R122). -/
def latchWord (c : CodeWord) (s : State) : State := { s with work := { s.work with c := c } }

end Sys2Proof.Machine
end

