-- ==== Sys2Proof/Machine/Dictionary.lean ====
section
/-! DEFINITION. The adaptive dictionary engine (spec/41_dictionary_engine.md). -/

namespace Sys2Proof.Machine

/-- `DICT[k] <- SNAP[k]` for `k` below `n`, from 0 up (R100). -/
def copySnap : Nat → DictCells → DictCells
  | 0, d => d
  | n + 1, d => dictWrite (copySnap n d) n (snap n)

/-- R100. The working registers, unspecified after DICT.INIT (R33), keep what the extractor left: DESIGN CHOICE, log 21. -/
def dictInit (s : State) : State := { s with dict := copySnap Config.nInit s.dict, dictSize := 256 }

/-- R107: the slots above 255 become stale and keep their strings (R32). -/
def dictReset (s : State) : State := { s with dictSize := 256 }

/-- R106 for a slot that exists: the key is `dict_size` "at the moment of insertion". -/
def insertAt (t : Str) (s : State) : State :=
  { s with
    dict := dictWrite s.dict s.dictSize.toNat t
    dictSize := s.dictSize + 1
    work := { s.work with key := s.dictSize } }

/-- R106: "precondition `dict_size <= 4095`"; there is no slot above (R56). -/
def dictInsert (t : Str) (s : State) : Res State :=
  if s.dictSize.toNat < Config.dictSlots then .next (insertAt t s)
  else .fault (.writeOutside .dict s.dictSize.toNat)

/-- R108: the reset before the insertion. -/
def dictGrow (t : Str) (s : State) : Res State :=
  dictInsert t (if full s then dictReset s else s)

/-- `DICT.INIT` (R100). -/
def execDictInit (s : State) : Res State := .next (dictInit s)

/-- `DICT.LOOKUP(k)` (R104), returned to the register the caller names. -/
def execDictLookup (dst : EntryReg) (k : Code) (s : State) : Res State :=
  andThen (lookup s k.toNat) fun t => .next (writeEntry dst t s)

/-- `DICT.RESET` (R107). -/
def execDictReset (s : State) : Res State := .next (dictReset s)

/-- `DICT.INSERT(s)` (R106); the returned key is in the working register `key`. -/
def execDictInsert (t : Str) (s : State) : Res State := dictInsert t s

/-- `DICT.GROW(s)` (R108). -/
def execDictGrow (t : Str) (s : State) : Res State := dictGrow t s

end Sys2Proof.Machine
end

