-- ==== Sys2Proof/Machine/Output.lean ====
section
/-! DEFINITION. The output accumulator (spec/43_output_accumulator.md). -/

namespace Sys2Proof.Machine

/-- `OUT.CLEAR` (R140). -/
def execOutClear (s : State) : Res State := .next (outClear s)

/-- `OUT.APPEND(s)` (R142). -/
def execOutAppend (t : Str) (s : State) : Res State := .next (outAppend t s)

/-- `OUT.COMMIT` (R143). -/
def execOutCommit (s : State) : Res State := .next (outCommit s)

/-- `OUT.DISCARD` (R144). -/
def execOutDiscard (s : State) : Res State := .next (outDiscard s)

end Sys2Proof.Machine
end

