-- ==== Sys2Proof/Machine/Decoder.lean ====
section
/-! DEFINITION. The decoder sequence (spec/42_decoder_sequence.md): the seed step, the prelude of a main-loop step,
Case A and Case B, in the order of effects of R129. -/

namespace Sys2Proof.Machine

/-- R121 after its fault test: append `DICT[c]`, "`prev_code <- c[11:0]`", "`ci <- 1`". -/
def seedFinish (c : CodeWord) (t : Str) (s : State) : State :=
  { outAppend t (writeEntry .emitted t s) with prevCode := c.setWidth 12, ci := 1 }

/-- R121. -/
def seedStep (c : CodeWord) (s : State) : Res State :=
  if present s c then
    andThen (lookup s c.toNat) fun t => .next (seedFinish c t (latchWord c s))
  else .next (raiseFault .unknownSeedCode c.toNat (latchWord c s))

/-- R122: the test of `prev_code` comes first and raises InternalInconsistency; then `prev_entry` is read. -/
def prelude (c : CodeWord) (body : State → Res State) (s : State) : Res State :=
  if prevPresent s then
    andThen (lookup s s.prevCode.toNat) fun p => body (writeEntry .prevEntry p (latchWord c s))
  else .next (raiseFault .internalInconsistency s.prevCode.toNat (latchWord c s))

/-- Case A up to the forming of the strings (R129 (4), (5)): "`new_entry <- prev_entry ++ [first(curr_entry)]`". -/
def formKnown (c : CodeWord) (s : State) : Res State :=
  andThen (lookup s c.toNat) fun e => andThen (first e) fun b =>
    .next { s with work := { s.work with currEntry := e, newEntry := s.work.prevEntry ++ [b], emitted := e } }

/-- Case B: "`new_entry <- prev_entry ++ [first(prev_entry)]`" (R124). -/
def formSelfref (s : State) : Res State :=
  andThen (first s.work.prevEntry) fun b =>
    .next { s with work := { s.work with newEntry := s.work.prevEntry ++ [b], emitted := s.work.prevEntry ++ [b] } }

/-- "`prev_code <- c[11:0]`; `ci <- ci + 1`" (R123). -/
def finishKnown (c : CodeWord) (s : State) : State := { s with prevCode := c.setWidth 12, ci := s.ci + 1 }

/-- "`prev_code <- key[11:0]`; `ci <- ci + 1`" (R124): "the key just inserted, not c". -/
def finishSelfref (s : State) : State := { s with prevCode := s.work.key.setWidth 12, ci := s.ci + 1 }

/-- R123 from `prev_entry` on. -/
def caseA (c : CodeWord) (s : State) : Res State :=
  andThen (formKnown c s) fun t =>
    andThen (dictGrow t.work.newEntry (outAppend t.work.emitted t)) fun u => .next (finishKnown c u)

/-- R124 from `prev_entry` on. -/
def caseB (s : State) : Res State :=
  andThen (formSelfref s) fun t =>
    andThen (dictGrow t.work.newEntry (outAppend t.work.emitted t)) fun u => .next (finishSelfref u)

/-- R122: the prelude and the dispatch on the presence test of `dict_size` "at the start of the step". -/
def loopStep (c : CodeWord) (s : State) : Res State :=
  prelude c (fun t => if present s c then caseA c t else caseB t) s

/-- `D.SEED` (R121). -/
def execDSeed (c : CodeWord) (s : State) : Res State := seedStep c s

/-- `D.KNOWN` (R122, R123). -/
def execDKnown (c : CodeWord) (s : State) : Res State := prelude c (caseA c) s

/-- `D.SELFREF` (R122, R124): the value of `c` is used only by the test that selects the operation. -/
def execDSelfref (c : CodeWord) (s : State) : Res State := prelude c caseB s

/-- `D.SEED.legal` (R76 (a), R121). -/
def execDSeedLegal (c : Byte) (s : State) : Res State := seedStep (lowWord c) s

/-- `D.KNOWN.static` (R76 (a), R123). -/
def execDKnownStatic (c : Byte) (s : State) : Res State := prelude (lowWord c) (caseA (lowWord c)) s

/-- `D.SELFREF.static` (R76 (b), R124). -/
def execDSelfrefStatic (h : BitVec 4) (c : Code) (s : State) : Res State := prelude (highWord h c) caseB s

/-- `D.DYNAMIC` (R76 (c), R122): D.SEED at `ci = 0`, else D.KNOWN or D.SELFREF by the presence test. -/
def execDDynamic (c : Code) (s : State) : Res State :=
  if s.ci = 0 then seedStep (zext16 c) s else loopStep (zext16 c) s

end Sys2Proof.Machine
end

