-- ==== Sys2Proof/Machine/Sequence.lean ====
section
/-! DEFINITION. Sequencing (spec/44_run_control.md R152, R154, R156; spec/41_dictionary_engine.md R109): which operation
the block performs next, and where its state machines stand after it. -/

namespace Sys2Proof.Machine

/-- The column `PHASE` of R156. -/
def Fsm.phase : Fsm → Phase
  | .sIdle => .idle
  | .sXsel => .extract
  | .sXpair => .extract
  | .sXwalk => .extract
  | .sXtail => .extract
  | .sCfg => .config
  | .sInit => .config
  | .sSeed => .seed
  | .sFetch => .loop
  | .sClass => .loop
  | .sEmit _ => .loop
  | .sGrow _ => .loop
  | .sNext _ => .loop
  | .sDone => .done
  | .sFault => .fault

/-- The phase the host sees in a state entered with phase `p`: the column `PHASE`, but `S_DONE` keeps `p` until RUN.DONE
writes it (R155; log 12). -/
def Fsm.phaseFrom (f : Fsm) (p : Phase) : Phase :=
  match f with
  | .sDone => p
  | f => f.phase

/-- Enter a state of R156. -/
def enter (f : Fsm) (s : State) : State := { s with fsm := f, phase := f.phaseFrom s.phase }

/-- After a decoder step: "if `ci = N_CODES` the decoder sequence is finished" (R125). -/
def afterWord (s : State) : Fsm := if s.ci = s.nCodes then .sDone else .sFetch

/-- The column `next` of R156 after the operation of state `f` left the state `t`. -/
def nextFsm (f : Fsm) (t : State) : Fsm :=
  match f with
  | .sIdle => .sXsel
  | .sFault => .sXsel
  | .sDone => if t.phase = .done then .sDone else .sXsel
  | .sXsel => .sCfg
  | .sXpair => .sCfg
  | .sXwalk => if t.bi + 3 ≤ t.inLen then .sXwalk else .sXtail
  | .sXtail => .sCfg
  | .sCfg => .sInit
  | .sInit => if t.nCodes = 0 then .sDone else .sSeed
  | .sSeed => afterWord t
  | .sFetch => afterWord t
  | .sClass => .sClass
  | .sEmit known => .sGrow known
  | .sGrow known => if t.grow = .gReset then .sGrow known else .sNext known
  | .sNext known => .sNext known

/-- "(4) `DICT.INIT`, `ci <- 0`" (R152). -/
def nextCi (f : Fsm) (t : State) : Nat := if f = .sInit then 0 else t.ci

/-- The transition of the overflow-reset machine when its operation is done (R109). -/
def nextGrow (f : Fsm) (t : State) : GrowFsm :=
  match f with
  | .sGrow _ => if t.grow = .gReset then .gWrite else .gIdle
  | _ => t.grow

/-- Where the state machines stand after the operation of state `f` left the state `t`. "A `raise` at any point replaces
the rest by RUN.FAULT" (R152). -/
def afterOp (f : Fsm) (t : State) : State :=
  if t.phase = .fault then t
  else
    { t with
      fsm := nextFsm f t
      phase := (nextFsm f t).phaseFrom t.phase
      ci := nextCi f t
      grow := nextGrow f t }

/-- What the block does next. -/
inductive Action where
  /-- Nothing: it waits for `CTRL.START` (R156, R191). -/
  | wait
  /-- One operation of R75 or R76. -/
  | op (i : Instr)
  /-- A transition that performs no operation of the table, to the state given. -/
  | move (t : State)
deriving DecidableEq, Repr

/-- While the block waits, a pending write of `CTRL.START` begins a run (R28). -/
def selectWaiting (s : State) : Action := if s.start then .op .runStart else .wait

/-- `S_XSEL`: "choose by `N`: 0, 1, 2, other" (R156). -/
def selectByLength (s : State) : Action :=
  match s.inLen with
  | 0 => .op .xEmpty
  | 1 => .op .xOne
  | 2 => .move (enter .sXpair s)
  | _ => .move (enter .sXwalk s)

/-- The triple at byte `bi`, read in the order of R81 and decoded. -/
def selectTriple (s : State) : Res Action :=
  andThen (readIn s s.bi) fun b0 =>
    andThen (readPair s (s.bi + 1)) fun p => .next (.op (decodeTriple b0 p.1 p.2))

/-- The 16-bit word at bytes 0 and 1 (R83). -/
def selectPair (s : State) : Res Action :=
  andThen (readPair s 0) fun p => .next (.op (.xPair16 (wide p.1 p.2)))

/-- The tail by `N mod 3` (R80, R156): one leftover byte is recombined with the byte before it (R84). -/
def selectTail (s : State) : Res Action :=
  if s.inLen % 3 = 1 then
    if s.inLen < 4 then .fault (.readOutside .input s.inLen)
    else andThen (readPair s (s.inLen - 2)) fun p => .next (.op (.xTail1 (wide p.1 p.2)))
  else if s.inLen % 3 = 2 then .next (.op .xTail2)
  else .next (.move (enter .sCfg s))

/-- The states of the overflow-reset machine (R109). -/
def selectGrow (s : State) : Action :=
  match s.grow with
  | .gIdle => .move { s with grow := .gCheck }
  | .gCheck => .move { s with grow := if full s then .gReset else .gWrite }
  | .gReset => .op .dictReset
  | .gWrite => .op (.dictInsert s.work.newEntry)

end Sys2Proof.Machine
end

