-- ==== Sys2Proof/Machine/Select.lean ====
section
/-! DEFINITION. The fetch: from the state of the two state machines and from the bits they stand at, the next action
(spec/44_run_control.md R156). -/

namespace Sys2Proof.Machine

/-- `S_CLASS`: "presence test; Case A: read `curr_entry`; form `new_entry`, `emitted`" (R156). -/
def classify (s : State) : Res State :=
  if present s s.work.c then
    andThen (formKnown s.work.c s) fun t => .next (enter (.sEmit true) t)
  else andThen (formSelfref s) fun t => .next (enter (.sEmit false) t)

/-- `S_NEXT`: "write `prev_code` (Case A: `c`; Case B: `key`); `ci <- ci + 1`" (R156). -/
def nextWord (known : Bool) (s : State) : State :=
  let t := if known then finishKnown s.work.c s else finishSelfref s
  enter (afterWord t) t

/-- The next action. A main-loop step is one operation here; the states below `S_FETCH` are those of the finer machine
(Machine/Micro.lean). -/
def select (s : State) : Res Action :=
  match s.fsm with
  | .sIdle => .next (selectWaiting s)
  | .sFault => .next (selectWaiting s)
  | .sDone => .next (if s.phase = .done then selectWaiting s else .op .runDone)
  | .sXsel => .next (selectByLength s)
  | .sXpair => selectPair s
  | .sXwalk => selectTriple s
  | .sXtail => selectTail s
  | .sCfg => .next (.op .runCfgchk)
  | .sInit => .next (.op .dictInit)
  | .sSeed => andThen (readCode s s.ci) fun c => .next (.op (decodeSeedWord c))
  | .sFetch => andThen (readCode s s.ci) fun c => .next (.op (decodeLoopWord c))
  | .sClass => andThen (classify s) fun t => .next (.move t)
  | .sEmit _ => .next (.op (.outAppend s.work.emitted))
  | .sGrow _ => .next (selectGrow s)
  | .sNext known => .next (.move (nextWord known s))

/-- A write of `CTRL.START` is acted on by this step or, while the block is busy, ignored (R28, R157): either way it
does not last. -/
def consumeStart (s : State) : State := { s with start := false }

/-- `S_FETCH` of the finer machine: "`c <- CODES[ci]`; test `prev_code < dict_size`; `prev_entry <- DICT[prev_code]`"
(R156). -/
def fetchWord (s : State) : Res State :=
  andThen (readCode s s.ci) fun c => prelude c (fun t => .next (enter .sClass t)) s

end Sys2Proof.Machine
end

