-- ==== Sys2Proof/Machine/Load.lean ====
section
/-! DEFINITION. Placing one word of the stream where the next step reads it (log 10). -/

namespace Sys2Proof.Machine

/-- A buffer of 0 or 1 bytes at the choice of `S_XSEL` (R64). -/
def placeBuffer (bytes : List Byte) (s : State) : State :=
  { s with
    fsm := .sXsel, phase := .extract
    inMem := memWriteBytes s.inMem 0 bytes, inLen := bytes.length }

/-- A triple at byte `bi`, the last of the buffer (R81). -/
def placeTriple (bytes : List Byte) (s : State) : State :=
  { s with
    fsm := .sXwalk, phase := .extract
    inMem := memWriteBytes s.inMem s.bi bytes, inLen := s.bi + bytes.length }

/-- A code word as the whole code stream, at the seed step of an initial dictionary (R121, R100). -/
def placeSeedWord (c : CodeWord) (s : State) : State :=
  { s with
    fsm := .sSeed, phase := .seed
    codes := cellsPut s.codes 0 c, nCodes := 1, ci := 0, dictSize := 256 }

/-- The word of the table placed for its slot (`tableWord`); a width the table does not use places nothing. -/
def placeWord (s : State) (nbits w : Nat) : State :=
  match nbits with
  | 0 => placeBuffer [] s
  | 8 => placeBuffer [tableByte w 0] s
  | 16 => placeSeedWord (wide (tableByte w 1) (tableByte w 0)) s
  | 24 => placeTriple [tableByte w 2, tableByte w 1, tableByte w 0] s
  | _ => s

end Sys2Proof.Machine
end

