-- ==== Sys2Proof/Machine/Extractor.lean ====
section
/-! DEFINITION. The Code Extractor (spec/40_code_extractor.md). The bytes of a format are read and decoded by the
fetch; an operation here has its fields as operands. -/

namespace Sys2Proof.Machine

/-- `X.EMPTY` (R82): "`N_CODES <- 0`". -/
def execXEmpty (s : State) : Res State := .next { s with nCodes := 0 }

/-- `X.ONE` (R86): "`raise MalformedLength(N)`". -/
def execXOne (s : State) : Res State := .next (raiseFault .malformedLength s.inLen s)

/-- R83: "`CODES[0] <- w16`", "`N_CODES <- 1`". -/
def storePair (w : CodeWord) (s : State) : State :=
  { writeCode 0 w s with nCodes := 1, work := { s.work with w16 := w } }

/-- `X.PAIR16` (R83). -/
def execXPair16 (w : CodeWord) (s : State) : Res State := .next (storePair w s)

/-- The working registers of one triple (R17): the three bytes and the two codes. -/
def tripleWork (a b : Code) (w : Work) : Work :=
  { w with b0 := packHigh a, b1 := packMid a b, b2 := packLow b, codeA := a, codeB := b }

/-- R81: `code_A` is written before `code_B`. -/
def storeTriple (a b : Code) (s : State) : State :=
  { writeCode (s.nCodes + 1) (zext16 b) (writeCode s.nCodes (zext16 a) s) with
    nCodes := s.nCodes + 2, bi := s.bi + 3, work := tripleWork a b s.work }

/-- `X.TRIPLE` (R81). -/
def execXTriple (a b : Code) (s : State) : Res State := .next (storeTriple a b s)

/-- R84: "`CODES[N_CODES-1] <- w16`", `i` the index of that last code word. -/
def storeTail (i : Nat) (w : CodeWord) (s : State) : State :=
  { writeCode i w s with work := { s.work with w16 := w } }

/-- `X.TAIL1` (R84); with `N_CODES = 0` there is no last code word (R56). -/
def execXTail1 (w : CodeWord) (s : State) : Res State :=
  match s.nCodes with
  | 0 => .fault (.writeOutside .codes 0)
  | n + 1 => .next (storeTail n w s)

/-- `X.TAIL2` (R85): "nothing; `CODES` and `N_CODES` are unchanged". -/
def execXTail2 (s : State) : Res State := .next s

end Sys2Proof.Machine
end

