-- ==== Sys2Proof/Machine/RunControl.lean ====
section
/-! DEFINITION. Run control (spec/44_run_control.md) and RUN.FAULT (spec/60_exceptions.md R180). -/

namespace Sys2Proof.Machine

/-- `RUN.START` (R151): ignored while the block is busy (R157). -/
def execRunStart (s : State) : Res State :=
  if s.phase.quiet then
    let t := beginRun s
    .next (if t.srcOk then t else raiseFault .sourceUnavailable 0 t)
  else .next s

/-- "`M <- 1 << e`" (R153), 13 bits. -/
def latchMax (e : BitVec 4) (s : State) : State := { s with maxSize := 1#13 <<< e.toNat }

/-- `RUN.CFGCHK` (R153). -/
def execRunCfgchk (s : State) : Res State :=
  let t := { s with phase := .config }
  if t.dictExp.toNat < Config.minDictExp ∨ Config.maxDictExp < t.dictExp.toNat then
    .next (raiseFault .configurationError t.dictExp.toNat t)
  else .next (latchMax t.dictExp t)

/-- `RUN.DONE` (R155): "`OUT.COMMIT; STATUS.PHASE <- DONE`". -/
def execRunDone (s : State) : Res State := .next { outCommit s with phase := .done }

/-- `RUN.FAULT` (R180). -/
def execRunFault (f : RunFault) (info : Nat) (s : State) : Res State := .next (raiseFault f info s)

end Sys2Proof.Machine
end

