-- ==== Sys2Proof/Machine/Dispatch.lean ====
section
/-! DEFINITION. One arm per operation: which meaning it has. -/

namespace Sys2Proof.Machine

def exec (i : Instr) (s : State) : Host.Outcome State Fault Refusal :=
  match i with
  | .runStart => Sys2Proof.Machine.execRunStart s
  | .runCfgchk => Sys2Proof.Machine.execRunCfgchk s
  | .runDone => Sys2Proof.Machine.execRunDone s
  | .runFault f info => Sys2Proof.Machine.execRunFault f info s
  | .xEmpty => Sys2Proof.Machine.execXEmpty s
  | .xOne => Sys2Proof.Machine.execXOne s
  | .xPair16 w => Sys2Proof.Machine.execXPair16 w s
  | .xTriple a b => Sys2Proof.Machine.execXTriple a b s
  | .xTail1 w => Sys2Proof.Machine.execXTail1 w s
  | .xTail2 => Sys2Proof.Machine.execXTail2 s
  | .dictInit => Sys2Proof.Machine.execDictInit s
  | .dictLookup dst k => Sys2Proof.Machine.execDictLookup dst k s
  | .dictReset => Sys2Proof.Machine.execDictReset s
  | .dictInsert t => Sys2Proof.Machine.execDictInsert t s
  | .dictGrow t => Sys2Proof.Machine.execDictGrow t s
  | .dSeed c => Sys2Proof.Machine.execDSeed c s
  | .dKnown c => Sys2Proof.Machine.execDKnown c s
  | .dSelfref c => Sys2Proof.Machine.execDSelfref c s
  | .dSeedLegal c => Sys2Proof.Machine.execDSeedLegal c s
  | .dKnownStatic c => Sys2Proof.Machine.execDKnownStatic c s
  | .dSelfrefStatic h c => Sys2Proof.Machine.execDSelfrefStatic h c s
  | .dDynamic c => Sys2Proof.Machine.execDDynamic c s
  | .outClear => Sys2Proof.Machine.execOutClear s
  | .outAppend t => Sys2Proof.Machine.execOutAppend t s
  | .outCommit => Sys2Proof.Machine.execOutCommit s
  | .outDiscard => Sys2Proof.Machine.execOutDiscard s

end Sys2Proof.Machine
end

