-- ==== Sys2Proof/Machine/Perform.lean ====
section
/-! DEFINITION. How a selected action is performed: `exec`, and the sequencing of spec/44_run_control.md R156 after it. -/

namespace Sys2Proof.Machine

/-- An operation and where the state machines stand after it. -/
def runOp (i : Instr) (s : State) : Res State :=
  andThen (exec i (consumeStart s)) fun t => .next (afterOp s.fsm t)

/-- Perform an action selected in state `s`. -/
def perform (s : State) (a : Action) : Res State :=
  match a with
  | .wait => .next (consumeStart s)
  | .move t => .next (consumeStart t)
  | .op i => runOp i s

end Sys2Proof.Machine
end

