-- ==== Sys2Proof/Machine/Step.lean ====
section
/-! DEFINITION. One step of the block, and the placing of one word where the next step reads it. -/

namespace Sys2Proof.Machine

/-- One step: the operation the sequencer selects (R152), or the wait, or a transition without an operation. -/
def step (s : State) : Host.Outcome State Fault Refusal := andThen (select s) (perform s)

/-- `n` steps, up to the first stop: `Host.Core.run` of this block. -/
def stepRun : Nat → State → Res State
  | 0, s => .next s
  | n + 1, s => andThen (step s) (stepRun n)

/-- `s` with the word placed where the next step reads it (log 10). -/
def State.withFetchWord (s : State) (nbits w : Nat) : State := placeWord s nbits w

end Sys2Proof.Machine
end

