-- ==== Sys2Proof/Machine/Micro.lean ====
section
/-! DEFINITION. The finer machine of spec/44_run_control.md R156 and spec/41_dictionary_engine.md R109: a main-loop step
goes through `S_FETCH`, `S_CLASS`, `S_EMIT`, `S_GROW` (with `G_CHECK`, `G_RESET`, `G_WRITE`) and `S_NEXT`. Everywhere else
it is `step`. -/

namespace Sys2Proof.Machine

/-- One step of the finer machine. -/
def microStep (s : State) : Res State :=
  if s.fsm = .sFetch then fetchWord (consumeStart s) else step s

/-- `n` steps of the finer machine, up to the first stop. -/
def microRun : Nat → State → Res State
  | 0, s => .next s
  | n + 1, s => andThen (microStep s) (microRun n)

end Sys2Proof.Machine
end

