-- ==== Sys2Proof/Machine/Reference.lean ====
section
/-! DEFINITION. The block as one function of its inputs (spec/44_run_control.md R160), with the extraction
(spec/40_code_extractor.md R87) and the decoding (spec/42_decoder_sequence.md R126) as functions on lists. The dictionary
here is the list of its live entries, which a reset replaces by the initial one (R32, R101). -/

namespace Sys2Proof.Machine

/-- The regular codes of the complete triples, in order (R87). -/
def tripleCodes : List Byte → List CodeWord
  | b0 :: b1 :: b2 :: rest => zext16 (codeA b0 b1) :: zext16 (codeB b1 b2) :: tripleCodes rest
  | _ => []

/-- The last two bytes as one word (R84). -/
def tailWord (bytes : List Byte) : CodeWord :=
  wide (bytes.getD (bytes.length - 2) 0) (bytes.getD (bytes.length - 1) 0)

/-- `extract(IN, N)` (R87); none is MalformedLength. -/
def extract (bytes : List Byte) : Option (List CodeWord) :=
  if bytes.length = 1 then none
  else if bytes.length = 2 then some [tailWord bytes]
  else if bytes.length % 3 = 1 then some ((tripleCodes bytes).dropLast ++ [tailWord bytes])
  else some (tripleCodes bytes)

/-- The 256 initial entries (R24, R100). -/
def initialDict : List Str := (List.range Config.nInit).map snap

/-- The dictionary an insertion of a step goes into (R105, R107). -/
def growBase (m : Nat) (entries : List Str) : List Str := if m ≤ entries.length then initialDict else entries

/-- The main loop of R126. -/
def decodeRest (m : Nat) : List Str → Nat → Str → List CodeWord → Except (RunFault × Nat) Str
  | _, _, out, [] => .ok out
  | entries, prev, out, c :: cs =>
    match entries[prev]? with
    | none => .error (.internalInconsistency, prev)
    | some p =>
      match entries[c.toNat]? with
      | some e => decodeRest m (growBase m entries ++ [p ++ e.take 1]) c.toNat (out ++ e) cs
      | none =>
        let t := p ++ p.take 1
        decodeRest m (growBase m entries ++ [t]) (growBase m entries).length (out ++ t) cs

/-- `decode(CODES, M)` (R126). -/
def decodeAll (m : Nat) : List CodeWord → Except (RunFault × Nat) Str
  | [] => .ok []
  | c :: cs =>
    if 256 ≤ c.toNat then .error (.unknownSeedCode, c.toNat)
    else decodeRest m initialDict c.toNat (snap c.toNat) cs

/-- The result of one run (R160). -/
inductive RunResult where
  | done (out : Str)
  | fault (f : RunFault) (info : Nat)
deriving DecidableEq, Repr

/-- `run(SRC_OK, IN, DICT_EXP)` (R160). -/
def runResult (srcOk : Bool) (bytes : List Byte) (dictExp : BitVec 4) : RunResult :=
  if srcOk = false then .fault .sourceUnavailable 0
  else
    match extract bytes with
    | none => .fault .malformedLength 1
    | some cs =>
      if dictExp.toNat < 8 ∨ 12 < dictExp.toNat then .fault .configurationError dictExp.toNat
      else
        match decodeAll (2 ^ dictExp.toNat) cs with
        | .ok out => .done out
        | .error e => .fault e.1 e.2

end Sys2Proof.Machine
end

