-- ==== Sys2Proof/Machine/HostPort.lean ====
section
/-! DEFINITION. The host's moves on the interface registers (spec/10_state.md R27 to R30, spec/60_exceptions.md R186,
spec/70_reset_and_hazards.md R206 to R208). A move the host must not make answers none (R208; log 11). Between the write
of START and the step that performs RUN.START every read still shows the phase and the result from before the write:
DESIGN CHOICE, log 22. -/

namespace Sys2Proof.Machine

/-- The host may write: the block is not busy and has no start to act on (R208). -/
def hostMayWrite (s : State) : Bool := s.phase.quiet && !s.start

/-- Write `CFG`; "any 4-bit value can be written" (R27). -/
def hostWriteCfg (e : BitVec 4) (s : State) : Option State :=
  if hostMayWrite s then some { s with dictExp := e } else none

/-- Read `CFG.DICT_EXP`, "read-write for the host" (R27). -/
def hostReadCfg (s : State) : BitVec 4 := s.dictExp

/-- Write `CTRL`: bit 0 is START, bit 1 is SRC_OK (R28). While the block is busy START is ignored and SRC_OK must keep
its value. Where one write carries START = 1 and a new SRC_OK, the run it starts samples the new one: DESIGN CHOICE,
log 20. -/
def hostWriteCtrl (w : BitVec 2) (s : State) : Option State :=
  if hostMayWrite s then some { s with start := w.getLsbD 0, srcOk := w.getLsbD 1 }
  else if w.getLsbD 1 = s.srcOk then some s
  else none

/-- Read `CTRL.SRC_OK`, "read-write for the host" (R28); START is write-only and has no read. -/
def hostReadSrcOk (s : State) : Bool := s.srcOk

/-- Write one byte of `IN` (R21, R206). -/
def hostWriteIn (a : Nat) (b : Byte) (s : State) : Option State :=
  if hostMayWrite s then some { s with inMem := cellsPut s.inMem a b } else none

/-- Write `IN_LEN` (R30). -/
def hostWriteInLen (n : Nat) (s : State) : Option State :=
  if hostMayWrite s then some { s with inLen := n } else none

/-- The host's duties before a run, and the start of it (R206). -/
def hostLoad (bytes : List Byte) (e : BitVec 4) (s : State) : Option State :=
  if hostMayWrite s then
    some { s with
      dictExp := e, srcOk := true, start := true
      inMem := memWriteBytes s.inMem 0 bytes, inLen := bytes.length }
  else none

/-- `STATUS.PHASE` as the host reads it (R29). -/
def Phase.bits : Phase → BitVec 3
  | .idle => 0
  | .extract => 1
  | .config => 2
  | .seed => 3
  | .loop => 4
  | .done => 5
  | .fault => 6

/-- The number of a fault (R170). -/
def faultBits : Option RunFault → BitVec 3
  | none => 0
  | some .sourceUnavailable => 1
  | some .configurationError => 2
  | some .unknownSeedCode => 3
  | some .internalInconsistency => 4
  | some .malformedLength => 5

/-- `STATUS`: PHASE in bits 2:0, FAULT_CODE in bits 5:3, OUT_VALID in bit 6 (R29). With a START pending it still shows the
phase from before the write (log 22). -/
def hostReadStatus (s : State) : BitVec 7 :=
  (BitVec.ofBool s.outValid ++ faultBits s.faultCode) ++ s.phase.bits

/-- `FAULT_INFO`, "meaningful only when `PHASE = FAULT`" (R30); with a START pending, that of the earlier run (log 22). -/
def hostReadFaultInfo (s : State) : Option (BitVec 16) :=
  if s.phase = .fault then some s.faultInfo else none

/-- `OUT_LEN`, read in `DONE` (R145); with a START pending, that of the earlier run (log 22). -/
def hostReadOutLen (s : State) : Option Nat := if s.phase = .done then some s.outLen else none

/-- `OUT[i]`, read in `DONE` below `OUT_LEN` (R26, R145); with a START pending, that of the earlier run (log 22). -/
def hostReadOut (i : Nat) (s : State) : Option Byte :=
  if s.phase = .done ∧ i < s.outLen then cellsRead s.outMem i else none

/-- The result of a run that is done: "the host reads `OUT_LEN` and then `OUT[0 .. OUT_LEN-1]`" (R145).
With a START pending it is the result of the earlier run (log 22). -/
def hostReadResult (s : State) : Option Str :=
  if s.phase = .done then memReadBytes s.outMem 0 s.outLen else none

end Sys2Proof.Machine
end

