-- ==== Sys2Proof/Safety.lean ====
section
/-! DEFINITION. What a sound state of a run is, in the words of spec/10_state.md R29, R31, R35 and
spec/41_dictionary_engine.md R110, and where the block stands in the stream. -/

namespace Sys2Proof.Machine

/-- The four spaces are in canonical form. -/
def Canonical (s : State) : Prop :=
  Memory.wf s.inMem = true ∧ CodeCells.wf s.codes = true ∧ DictCells.wf s.dict = true ∧ Memory.wf s.outMem = true

/-- `S_IDLE`, `S_FAULT`, and `S_DONE` after RUN.DONE: the block waits for `CTRL.START` (R156). -/
def waiting (s : State) : Bool :=
  match s.fsm with
  | .sIdle => true
  | .sFault => true
  | .sDone => decide (s.phase = .done)
  | _ => false

/-- The state machine is past the seed step of a run and inside a main-loop step (R156). -/
def Fsm.inLoop : Fsm → Bool
  | .sFetch => true
  | .sClass => true
  | .sEmit _ => true
  | .sGrow _ => true
  | .sNext _ => true
  | _ => false

/-- The state machine is between DICT.INIT and the end of the run. -/
def Fsm.decoding : Fsm → Bool
  | .sSeed => true
  | f => f.inLoop

/-- The extractor is done and the run has not ended. -/
def Fsm.extracted : Fsm → Bool
  | .sCfg => true
  | .sInit => true
  | f => f.decoding

/-- The phase is the one R156 gives for the state; before RUN.DONE has run, `S_DONE` shows the phase it was entered from
(log 12). The overflow-reset machine rests outside `S_GROW` (R109). -/
def ControlOk (s : State) : Prop :=
  (match s.fsm with
    | .sDone => s.phase = .config ∨ s.phase = .seed ∨ s.phase = .loop ∨ s.phase = .done
    | f => s.phase = f.phase) ∧
  ((∀ known, s.fsm ≠ .sGrow known) → s.grow = .gIdle)

/-- "nonzero exactly when `PHASE = FAULT`" and "1 exactly when `PHASE = DONE`" (R29). -/
def StatusOk (s : State) : Prop :=
  (s.faultCode ≠ none ↔ s.phase = .fault) ∧ (s.outValid = true ↔ s.phase = .done)

/-- A value of `M` (R16). -/
def LegalMax (m : Size) : Prop := ∃ e, 8 ≤ e ∧ e ≤ 12 ∧ m.toNat = 2 ^ e

/-- R35 (a), (b), (c), with the string of every live slot. -/
def DictOk (s : State) : Prop :=
  (256 ≤ s.dictSize.toNat ∧ s.dictSize.toNat ≤ max s.maxSize.toNat 257 ∧ s.dictSize.toNat ≤ 4096) ∧
  (∀ k, k < 256 → dictRead s.dict k = some (snap k)) ∧
  (∀ k, 256 ≤ k → k < s.dictSize.toNat → ∃ t, dictRead s.dict k = some t ∧ 2 ≤ t.length)

/-- `dict_size` at the start of main-loop step `ci` (R110), `m` the value of `M`. -/
def schedule (m ci : Nat) : Nat :=
  if ci ≤ 1 then 256
  else if m ≤ 256 then 257
  else 257 + (ci - 2) % (m - 256)

/-- The size of the dictionary that is active at the moment of insertion (R108). -/
def insertKey (m size : Nat) : Nat := if m ≤ size then 256 else size

/-- `N_CODES` for a buffer of `n` bytes (R64, R88). -/
def codeCount (n : Nat) : Nat := if n = 2 then 1 else 2 * (n / 3)

/-- How far the extractor is (R14, R80, R88). -/
def ExtractOk (s : State) : Prop :=
  match s.fsm with
  | .sXsel => s.bi = 0 ∧ s.nCodes = 0
  | .sXpair => s.inLen = 2
  | .sXwalk => s.bi % 3 = 0 ∧ s.bi + 3 ≤ s.inLen ∧ s.nCodes = 2 * (s.bi / 3)
  | .sXtail => 3 ≤ s.inLen ∧ s.bi = 3 * (s.inLen / 3) ∧ s.nCodes = 2 * (s.inLen / 3)
  | f => f.extracted = true → s.nCodes = codeCount s.inLen

/-- Where the decoder is and how large the dictionary is there (R15, R110). -/
def IndexOk (s : State) : Prop :=
  match s.fsm with
  | .sSeed => s.ci = 0 ∧ 0 < s.nCodes ∧ s.dictSize.toNat = 256
  | .sGrow _ =>
    1 ≤ s.ci ∧ s.ci < s.nCodes ∧
      (match s.grow with
        | .gReset => s.dictSize.toNat = schedule s.maxSize.toNat s.ci ∧ full s
        | .gWrite => s.dictSize.toNat = insertKey s.maxSize.toNat (schedule s.maxSize.toNat s.ci)
        | _ => s.dictSize.toNat = schedule s.maxSize.toNat s.ci)
  | .sNext _ => 1 ≤ s.ci ∧ s.ci < s.nCodes ∧ s.dictSize.toNat = schedule s.maxSize.toNat (s.ci + 1)
  | f => f.inLoop = true → 1 ≤ s.ci ∧ s.ci < s.nCodes ∧ s.dictSize.toNat = schedule s.maxSize.toNat s.ci

/-- The working registers a state of the finer machine relies on (R17, R156). -/
def WorkOk (s : State) : Prop :=
  match s.fsm with
  | .sClass => s.work.prevEntry ≠ []
  | .sEmit _ => s.work.emitted ≠ [] ∧ 2 ≤ s.work.newEntry.length
  | .sGrow _ => 2 ≤ s.work.newEntry.length
  | _ => True

/-- A sound state: what R31 and R35 say of every step boundary. `input` is the host's duty of R206. -/
structure Sound (s : State) : Prop where
  canonical : Canonical s
  control : ControlOk s
  status : StatusOk s
  input : ∀ a, a < s.inLen → cellsRead s.inMem a ≠ none
  extract : ExtractOk s
  codes : waiting s = false → ∀ i, i < s.nCodes → cellsRead s.codes i ≠ none
  maxSize : (s.fsm = .sInit ∨ s.fsm.decoding = true) → LegalMax s.maxSize
  dict : s.fsm.decoding = true → DictOk s
  index : IndexOk s
  work : WorkOk s
  output : s.phase ≠ .fault → ∀ a, a < s.outLen → cellsRead s.outMem a ≠ none

/-- The block stands at the bytes of one word of the stream and decodes them in the slot. A code word is shown as the two
bytes that make it (log 8). -/
inductive StandsAt (s : State) : Slot → List Byte → Prop where
  | triple (b0 b1 b2 : Byte) (hf : s.fsm = .sXwalk) (h0 : readIn s s.bi = .next b0)
      (h1 : readIn s (s.bi + 1) = .next b1) (h2 : readIn s (s.bi + 2) = .next b2) : StandsAt s .triple [b0, b1, b2]
  | pair (hi lo : Byte) (hf : s.fsm = .sXpair) (h0 : readIn s 0 = .next hi) (h1 : readIn s 1 = .next lo) :
      StandsAt s .pair [hi, lo]
  | tail1 (hi lo : Byte) (hf : s.fsm = .sXtail) (hn : s.inLen % 3 = 1) (h4 : 4 ≤ s.inLen)
      (h0 : readIn s (s.inLen - 2) = .next hi) (h1 : readIn s (s.inLen - 1) = .next lo) : StandsAt s .tail1 [hi, lo]
  | seedWord (hi lo : Byte) (hf : s.fsm = .sSeed) (h0 : readCode s s.ci = .next (wide hi lo)) :
      StandsAt s .seedWord [hi, lo]
  | loopWord (hi lo : Byte) (hf : s.fsm = .sFetch) (h0 : readCode s s.ci = .next (wide hi lo)) :
      StandsAt s .loopWord [hi, lo]

end Sys2Proof.Machine
end

