-- ==== Sys2Proof/Certificates/Slice0/Obligations.lean ====
section
/-! DEFINITION. The statements for the provers. Each docstring names the rule of spec/ it formalises. A fault of the block
is a next state; a stop of the model is Machine.Fault. -/

open Sys2Proof Sys2Proof.Machine

namespace Sys2Proof.Statements

/-! ### Words the statements share: what an operation leaves unchanged -/

/-- What the host writes: `CFG`, `CTRL`, `IN_LEN`, `IN`. -/
def SameHost (s t : State) : Prop :=
  t.dictExp = s.dictExp ∧ t.start = s.start ∧ t.srcOk = s.srcOk ∧ t.inLen = s.inLen ∧ t.inMem = s.inMem

/-- `STATUS` and `FAULT_INFO`. -/
def SameStatus (s t : State) : Prop :=
  t.phase = s.phase ∧ t.faultCode = s.faultCode ∧ t.outValid = s.outValid ∧ t.faultInfo = s.faultInfo

/-- The registers and the space of the extractor. -/
def SameExtractor (s t : State) : Prop := t.bi = s.bi ∧ t.nCodes = s.nCodes ∧ t.codes = s.codes

/-- The dictionary and its bound. -/
def SameDict (s t : State) : Prop := t.dictSize = s.dictSize ∧ t.maxSize = s.maxSize ∧ t.dict = s.dict

/-- The registers of the decoder sequence. -/
def SameIndex (s t : State) : Prop := t.ci = s.ci ∧ t.prevCode = s.prevCode

/-- The output accumulator. -/
def SameOutput (s t : State) : Prop := t.outLen = s.outLen ∧ t.outMem = s.outMem

/-- The state machines and the free-value counter. -/
def SameControl (s t : State) : Prop := t.fsm = s.fsm ∧ t.grow = s.grow ∧ t.freeCount = s.freeCount

/-- `OUT` has grown by `e` at its end and is otherwise as it was (R142). -/
def Appended (e : Str) (s t : State) : Prop :=
  t.outLen = s.outLen + e.length ∧
  (∀ j, j < e.length → cellsRead t.outMem (s.outLen + j) = e[j]?) ∧
  (∀ a, a < s.outLen ∨ s.outLen + e.length ≤ a → cellsRead t.outMem a = cellsRead s.outMem a)

/-- `DICT` has `e` at the key and is otherwise as it was; the key is the last live one (R106). -/
def Inserted (key : Nat) (e : Str) (s t : State) : Prop :=
  dictRead t.dict key = some e ∧
  (∀ k, k ≠ key → dictRead t.dict k = dictRead s.dict k) ∧
  t.dictSize.toNat = key + 1 ∧ t.work.key.toNat = key

/-- The fault entry of R180, and what it leaves unchanged. Nothing is said of `OUT` and `OUT_LEN` (R144). -/
def Raised (f : RunFault) (info : Nat) (s t : State) : Prop :=
  t.faultCode = some f ∧ t.faultInfo = BitVec.ofNat 16 info ∧ t.outValid = false ∧ t.phase = .fault ∧ t.fsm = .sFault ∧
  SameHost s t ∧ SameExtractor s t ∧ SameDict s t ∧ SameIndex s t

/-- The operations that decode the code word `c` as the seed (R75, R76 (a), (c)). -/
def SeedForm (c : CodeWord) (s : State) (i : Instr) : Prop :=
  i = .dSeed c ∨ (∃ b, i = .dSeedLegal b ∧ c = lowWord b) ∨ (∃ d, i = .dDynamic d ∧ c = zext16 d ∧ s.ci = 0)

/-- The operations that decode a present code word `c` at `ci >= 1` (R75, R76 (a), (c)). -/
def KnownForm (c : CodeWord) (s : State) (i : Instr) : Prop :=
  i = .dKnown c ∨ (∃ b, i = .dKnownStatic b ∧ c = lowWord b) ∨
  (∃ d, i = .dDynamic d ∧ c = zext16 d ∧ s.ci ≠ 0 ∧ present s c)

/-- The operations that decode an absent code word `c` at `ci >= 1` (R75, R76 (b), (c)). -/
def SelfrefForm (c : CodeWord) (s : State) (i : Instr) : Prop :=
  i = .dSelfref c ∨ (∃ h d, i = .dSelfrefStatic h d ∧ c = highWord h d) ∨
  (∃ d, i = .dDynamic d ∧ c = zext16 d ∧ s.ci ≠ 0 ∧ ¬ present s c)

/-- A string as the bit string of R42: the bits of each byte, most significant first. -/
def byteBits (bytes : List Byte) : List Bool :=
  bytes.flatMap fun b => (List.range 8).map fun i => b.getLsbD (7 - i)

/-- A regular code word as its 12 bits, most significant first. -/
def codeBits (cs : List CodeWord) : List Bool :=
  cs.flatMap fun c => (List.range 12).map fun i => c.getLsbD (11 - i)

/-- A run ends in the result: `DONE` with the output readable, or `FAULT` with the fault recorded. -/
def EndsIn (r : RunResult) (t : State) : Prop :=
  match r with
  | .done out => t.phase = .done ∧ t.outValid = true ∧ hostReadResult t = some out
  | .fault f info => t.phase = .fault ∧ t.faultCode = some f ∧ t.faultInfo = BitVec.ofNat 16 info

end Sys2Proof.Statements

open Sys2Proof.Statements

/-! ### Encoding -/

/-- R61, R62: a triple's fields are bits 23:12 and 11:0 of its 24 bits, a 16-bit word is its two bytes, high byte first. -/
def Obligations.FieldsAreTheBitsOfTheFormat : Prop :=
  (∀ b0 b1 b2 : Byte, decode .triple [b0, b1, b2] =
    .ok (.xTriple ((b0 ++ b1 ++ b2).extractLsb' 12 12) ((b0 ++ b1 ++ b2).extractLsb' 0 12))) ∧
  (∀ hi lo : Byte, decode .pair [hi, lo] = .ok (.xPair16 (hi ++ lo))) ∧
  (∀ hi lo : Byte, decode .tail1 [hi, lo] = .ok (.xTail1 (hi ++ lo)))

/-- 20_memory.md section 2 (R42): the codes of the complete triples, written as bits one after the other, are the bits of
the bytes of those triples. -/
def Obligations.CodesAreTheBitStream : Prop :=
  ∀ bytes : List Byte, codeBits (tripleCodes bytes) = byteBits (bytes.take (3 * (bytes.length / 3)))

/-- Every operation, encoded and decoded where the sequencer can select it, is itself. The slots, and two bytes for a code
word, are this model's (DEDUCED, log 8). -/
def Obligations.DecodeOfEncode : Prop :=
  ∀ (slot : Slot) (i : Instr), i.wf = true → slot.selects i = true → decode slot (encode i) = .ok i

/-- The other direction: in a slot of one format the decoded operation encodes to the bytes that were read. -/
def Obligations.EncodeOfDecode : Prop :=
  ∀ (slot : Slot) (bytes : List Byte) (i : Instr), slot ≠ .buffer → (∀ j, slot ≠ .bare j) →
    decode slot bytes = .ok i → encode i = bytes

/-- Whatever the decoder reads from the stream is well-formed (R76), with `dict_size` in the range of R35 (a). -/
def Obligations.DecodedIsWellFormed : Prop :=
  ∀ (slot : Slot) (bytes : List Byte) (i : Instr), (∀ j, slot ≠ .bare j) →
    (∀ size, slot = .loopStep size → 256 ≤ size.toNat ∧ size.toNat ≤ 4096) →
    decode slot bytes = .ok i → i.wf = true

/-- R76 and R75 name the same effect: at `ci >= 1` the static ranges do what the presence test selects, at `ci = 0` what
D.SEED does. -/
def Obligations.StaticRangesAgree : Prop :=
  ∀ (c : CodeWord) (s : State), 256 ≤ s.dictSize.toNat → s.dictSize.toNat ≤ 4096 →
    (s.ci ≠ 0 → exec (decodeLoopWord c) s = exec (decodeLoopStep s.dictSize c) s) ∧
    (s.ci = 0 → exec (decodeSeedWord c) s = exec (.dSeed c) s)

/-- Words written out from the patterns of R61 and R62 and the ranges of R76. The two bytes of a code word in the clauses on
`seedWord`, `loopWord` and `loopStep` are this model's (DESIGN CHOICE, log 8): R63 gives a code word no byte order. -/
def Obligations.WordsDecode : Prop :=
  decode .triple [0xAB, 0xCD, 0xEF] = .ok (.xTriple 0xABC 0xDEF) ∧
  decode .pair [0x12, 0x34] = .ok (.xPair16 0x1234) ∧
  decode .tail1 [0x42, 0x43] = .ok (.xTail1 0x4243) ∧
  decode .seedWord [0x00, 0x41] = .ok (.dSeedLegal 0x41) ∧
  decode .loopWord [0x01, 0x2C] = .ok (.dDynamic 0x12C) ∧
  decode .loopWord [0x42, 0x43] = .ok (.dSelfrefStatic 0x4 0x243) ∧
  decode (.loopStep 300) [0x01, 0x2B] = .ok (.dKnown 299) ∧
  decode (.loopStep 300) [0x01, 0x2C] = .ok (.dSelfref 300)

/-- R72: "extracting `PACK(L)` gives `L`", for an even number of regular codes. -/
def Obligations.ExtractOfPack : Prop :=
  ∀ codes : List Code, codes.length % 2 = 0 → extract (pack codes) = some (codes.map zext16)

/-! ### Reset, waiting, the start of a run -/

/-- 70_reset_and_hazards.md section 1 (R200, R33): what the spec states of power-on. The other registers are this model's
choice (log 1) and not stated. -/
def Obligations.PowerOnValues : Prop :=
  State.reset.phase = .idle ∧ State.reset.faultCode = none ∧ State.reset.outValid = false ∧ State.reset.dictExp = 12 ∧
  hostReadStatus State.reset = 0 ∧ ∀ k, k < 256 → dictRead State.reset.dict k = some [BitVec.ofNat 8 k]

/-- R155 ("In `DONE` the core changes nothing until the next `RUN.START`"), R191, R183: without a start a waiting block
stays as it is. -/
def Obligations.WaitingChangesNothing : Prop :=
  ∀ s : State, waiting s = true → s.start = false → step s = .next s

/-- 44_run_control.md section 3 (R157), 10_state.md R28: while the block is busy a write of START changes nothing: not the
step, and not the state when the host makes it. The pending START bit is this model's (DESIGN CHOICE, log 11). -/
def Obligations.StartIgnoredWhileBusy : Prop :=
  ∀ s : State, ControlOk s → s.phase.quiet = false →
    (∀ b, step { s with start := b } = step s) ∧
    (∀ w t, hostWriteCtrl w s = some t → t = s) ∧
    exec .runStart s = .next s

/-- 44_run_control.md section 3 (R158), R34: a run shares nothing with an earlier one but `CFG` and what the host left.
`freeCount` only numbers the free values (log 2). -/
def Obligations.RunSharesNothingWithEarlierRun : Prop :=
  ∀ s s' : State, ControlOk s → ControlOk s' → waiting s = true → waiting s' = true → s.start = true → s'.start = true →
    s.dictExp = s'.dictExp → s.srcOk = s'.srcOk → s.inLen = s'.inLen → s.inMem = s'.inMem → s.freeCount = s'.freeCount →
    ∃ t, step s = .next t ∧ step s' = .next t

/-- R151, R140: RUN.START of a quiet block clears the fault code and the output, starts the counters and the phase; with
`SRC_OK = 0` it raises SourceUnavailable. -/
def Obligations.RunStartEffect : Prop :=
  ∀ s : State, s.phase.quiet = true →
    (s.srcOk = true → ∃ t, exec .runStart s = .next t ∧ t.phase = .extract ∧ t.faultCode = none ∧ t.outValid = false ∧
      t.outLen = 0 ∧ (∀ a, cellsRead t.outMem a = none) ∧ t.bi = 0 ∧ t.nCodes = 0 ∧
      SameHost s t ∧ t.fsm = s.fsm) ∧
    (s.srcOk = false → ∃ t, exec .runStart s = .next t ∧ t.phase = .fault ∧ t.faultCode = some .sourceUnavailable ∧
      t.faultInfo = 0 ∧ t.outValid = false ∧ t.bi = 0 ∧ t.nCodes = 0 ∧ SameHost s t)

/-! ### The Code Extractor -/

/-- R82, R86, R85: the empty buffer gives no code word, the 1-byte buffer faults, the two tail bytes change nothing. -/
def Obligations.ShortBuffers : Prop :=
  ∀ s : State,
    (∃ t, exec .xEmpty s = .next t ∧ t.nCodes = 0 ∧ SameHost s t ∧ SameStatus s t ∧ t.bi = s.bi ∧ t.codes = s.codes ∧
      SameDict s t ∧ SameIndex s t ∧ SameOutput s t ∧ SameControl s t ∧ t.work = s.work) ∧
    (∃ t, exec .xOne s = .next t ∧ Raised .malformedLength s.inLen s t ∧ t.work = s.work) ∧
    exec .xTail2 s = .next s

/-- R83: the 2-byte buffer gives one 16-bit word. -/
def Obligations.PairGivesOneWord : Prop :=
  ∀ (s : State) (w : CodeWord), ∃ t, exec (.xPair16 w) s = .next t ∧
    cellsRead t.codes 0 = some w ∧ t.nCodes = 1 ∧ (∀ i, i ≠ 0 → cellsRead t.codes i = cellsRead s.codes i) ∧
    t.work = { s.work with w16 := w } ∧ t.bi = s.bi ∧
    SameHost s t ∧ SameStatus s t ∧ SameDict s t ∧ SameIndex s t ∧ SameOutput s t ∧ SameControl s t

/-- R81: a triple gives two code words in order, and `bi` advances by 3. -/
def Obligations.TripleGivesTwoWords : Prop :=
  ∀ (s : State) (a b : Code), ∃ t, exec (.xTriple a b) s = .next t ∧
    cellsRead t.codes s.nCodes = some (a.setWidth 16) ∧ cellsRead t.codes (s.nCodes + 1) = some (b.setWidth 16) ∧
    (∀ i, i ≠ s.nCodes → i ≠ s.nCodes + 1 → cellsRead t.codes i = cellsRead s.codes i) ∧
    t.nCodes = s.nCodes + 2 ∧ t.bi = s.bi + 3 ∧
    t.work = { s.work with b0 := t.work.b0, b1 := t.work.b1, b2 := t.work.b2, codeA := a, codeB := b } ∧
    [t.work.b0, t.work.b1, t.work.b2] = encode (.xTriple a b) ∧
    SameHost s t ∧ SameStatus s t ∧ SameDict s t ∧ SameIndex s t ∧ SameOutput s t ∧ SameControl s t

/-- R84: one leftover byte replaces the last code word; the count is unchanged. Without an emitted code word there is
nothing to replace and the model stops (R56, R84 corner case 6). -/
def Obligations.TailReplacesLastWord : Prop :=
  ∀ (s : State) (w : CodeWord),
    (1 ≤ s.nCodes → ∃ t, exec (.xTail1 w) s = .next t ∧
      cellsRead t.codes (s.nCodes - 1) = some w ∧
      (∀ i, i ≠ s.nCodes - 1 → cellsRead t.codes i = cellsRead s.codes i) ∧
      t.nCodes = s.nCodes ∧ t.bi = s.bi ∧ t.work = { s.work with w16 := w } ∧
      SameHost s t ∧ SameStatus s t ∧ SameDict s t ∧ SameIndex s t ∧ SameOutput s t ∧ SameControl s t) ∧
    (s.nCodes = 0 → exec (.xTail1 w) s = .fault (.writeOutside .codes 0))

/-- R88: the number of code words and their ranges, for every buffer length. -/
def Obligations.ExtractCounts : Prop :=
  ∀ bytes : List Byte,
    (extract bytes = none ↔ bytes.length = 1) ∧
    ∀ cs, extract bytes = some cs →
      cs.length = codeCount bytes.length ∧
      (bytes.length = 2 → ∃ b0 b1, bytes = [b0, b1] ∧ cs = [b0 ++ b1]) ∧
      (bytes.length % 3 = 0 ∨ (bytes.length % 3 = 2 ∧ 5 ≤ bytes.length) → ∀ c ∈ cs, c.toNat ≤ 4095) ∧
      (bytes.length % 3 = 1 → ∀ c ∈ cs.dropLast, c.toNat ≤ 4095)

/-- R85, R216: two bytes after whole triples reach no code word; after one more byte the low nibble of the byte before the
last triple byte does not either (R84 corner case 2). -/
def Obligations.DroppedBits : Prop :=
  (∀ (bytes : List Byte) (x y : Byte), bytes ≠ [] → bytes.length % 3 = 0 → extract (bytes ++ [x, y]) = extract bytes) ∧
  (∀ (bytes : List Byte) (b0 b1 b1' b2 z : Byte), bytes.length % 3 = 0 → b1 >>> 4 = b1' >>> 4 →
    extract (bytes ++ [b0, b1, b2, z]) = extract (bytes ++ [b0, b1', b2, z]))

/-- R87: from the choice by length the block reaches the configuration check with `CODES` equal to `extract`, or the fault
MalformedLength. -/
def Obligations.ExtractionComputesExtract : Prop :=
  ∀ (s : State) (bytes : List Byte), s.fsm = .sXsel → s.phase = .extract → s.bi = 0 → s.nCodes = 0 →
    memReadBytes s.inMem 0 s.inLen = some bytes →
    ∃ n t, stepRun n s = .next t ∧
      match extract bytes with
      | none => t.phase = .fault ∧ t.faultCode = some .malformedLength ∧ t.faultInfo = 1
      | some cs => t.fsm = .sCfg ∧ t.nCodes = cs.length ∧ ∀ i, i < cs.length → cellsRead t.codes i = cs[i]?

/-! ### The dictionary engine -/

/-- R100: the initial dictionary; slots above 255 are not written. That the working registers, unspecified there (R33), keep
what the extractor left is this model's (DESIGN CHOICE, log 21). -/
def Obligations.InitGivesIdentity : Prop :=
  ∀ s : State, ∃ t, exec .dictInit s = .next t ∧ t.dictSize = 256 ∧
    (∀ k, k < 256 → dictRead t.dict k = some [BitVec.ofNat 8 k]) ∧
    (∀ k, 256 ≤ k → dictRead t.dict k = dictRead s.dict k) ∧
    t.maxSize = s.maxSize ∧ SameHost s t ∧ SameStatus s t ∧ SameExtractor s t ∧ SameIndex s t ∧ SameOutput s t ∧
    SameControl s t ∧ t.work = s.work

/-- R104: a lookup of a live key returns the whole string and changes nothing else. -/
def Obligations.LookupReturnsEntry : Prop :=
  ∀ (s : State) (dst : EntryReg) (k : Code) (e : Str), k.toNat < s.dictSize.toNat → dictRead s.dict k.toNat = some e →
    ∃ t, exec (.dictLookup dst k) s = .next t ∧
      (match dst with
        | .prevEntry => t = { s with work := { s.work with prevEntry := e } }
        | .currEntry => t = { s with work := { s.work with currEntry := e } }
        | .emitted => t = { s with work := { s.work with emitted := e } })

/-- R107, R203: the reset writes `dict_size` and nothing else; the strings of the stale slots stay (R32). -/
def Obligations.ResetWritesOnlySize : Prop :=
  ∀ s : State, exec .dictReset s = .next { s with dictSize := 256 }

/-- R106: the insertion at the high-water mark. -/
def Obligations.InsertAtHighWaterMark : Prop :=
  ∀ (s : State) (e : Str), s.dictSize.toNat ≤ 4095 →
    ∃ t, exec (.dictInsert e) s = .next t ∧ Inserted s.dictSize.toNat e s t ∧
      t.maxSize = s.maxSize ∧ t.work = { s.work with key := s.dictSize } ∧
      SameHost s t ∧ SameStatus s t ∧ SameExtractor s t ∧ SameIndex s t ∧ SameOutput s t ∧ SameControl s t

/-- R108, R105: the key is 256 after a reset and `dict_size` otherwise, with `>=` in the full check. -/
def Obligations.GrowResetsBeforeInsert : Prop :=
  ∀ (s : State) (e : Str), s.maxSize.toNat ≤ 4096 →
    ∃ t, exec (.dictGrow e) s = .next t ∧
      Inserted (if s.maxSize.toNat ≤ s.dictSize.toNat then 256 else s.dictSize.toNat) e s t ∧
      t.maxSize = s.maxSize ∧ t.work = { s.work with key := t.work.key } ∧
      SameHost s t ∧ SameStatus s t ∧ SameExtractor s t ∧ SameIndex s t ∧ SameOutput s t ∧ SameControl s t

/-- R111: "if a main-loop step starts with `dict_size >= M`, then it ends with `dict_size = 257`, `key = 256`,
`DICT[256] = new_entry`, and every code word in `257 .. 65535` absent." -/
def Obligations.ResetStepLeavesOneEntry : Prop :=
  ∀ s t : State, Sound s → s.fsm = .sFetch → s.maxSize.toNat ≤ s.dictSize.toNat → step s = .next t → t.phase ≠ .fault →
    t.dictSize = 257 ∧ t.work.key = 256 ∧ dictRead t.dict 256 = some t.work.newEntry ∧
    ∀ c : CodeWord, 257 ≤ c.toNat → ¬ present t c

/-- R214: with `M = 256` every main-loop step is a reset step and leaves 257 entries. -/
def Obligations.SmallestDictionary : Prop :=
  ∀ s t : State, Sound s → s.fsm = .sFetch → s.maxSize = 256 → step s = .next t → t.phase ≠ .fault →
    full s ∧ t.dictSize = 257 ∧ t.work.key = 256

/-! ### The decoder sequence -/

/-- R121: a seed below 256 is appended and recorded; any other raises UnknownSeedCode. For every operation that decodes a
seed, in the initial dictionary. That the string it looked up stands in `emitted` is this model's (DEDUCED, log 13). -/
def Obligations.SeedStep : Prop :=
  ∀ (s : State) (c : CodeWord) (i : Instr), SeedForm c s i → s.dictSize = 256 →
    (∀ k, k < 256 → dictRead s.dict k = some (snap k)) →
    (c.toNat < 256 → ∃ t, exec i s = .next t ∧ Appended [c.setWidth 8] s t ∧ t.prevCode = c.setWidth 12 ∧ t.ci = 1 ∧
      t.work = { s.work with c := c, emitted := [c.setWidth 8] } ∧
      SameHost s t ∧ SameStatus s t ∧ SameExtractor s t ∧ SameDict s t ∧ SameControl s t) ∧
    (256 ≤ c.toNat → ∃ t, exec i s = .next t ∧ Raised .unknownSeedCode c.toNat s t ∧ t.work = { s.work with c := c })

/-- R122, R174: a main-loop step of any code word raises InternalInconsistency for an absent `prev_code`, before it
appends or inserts anything. -/
def Obligations.StalePrevCodeFaults : Prop :=
  ∀ (s : State) (c : CodeWord) (i : Instr), (KnownForm c s i ∨ SelfrefForm c s i) →
    s.dictSize.toNat ≤ s.prevCode.toNat →
    ∃ t, exec i s = .next t ∧ Raised .internalInconsistency s.prevCode.toNat s t ∧ t.work = { s.work with c := c }

/-- R123 (with R106, R108, R129): Case A, for every operation that decodes a present code word. -/
def Obligations.KnownStep : Prop :=
  ∀ (s : State) (c : CodeWord) (i : Instr) (p r : Str) (b : Byte), KnownForm c s i →
    s.prevCode.toNat < s.dictSize.toNat → dictRead s.dict s.prevCode.toNat = some p →
    c.toNat < s.dictSize.toNat → dictRead s.dict c.toNat = some (b :: r) → s.maxSize.toNat ≤ 4096 →
    ∃ t, exec i s = .next t ∧ Appended (b :: r) s t ∧
      Inserted (insertKey s.maxSize.toNat s.dictSize.toNat) (p ++ [b]) s t ∧
      t.prevCode = c.setWidth 12 ∧ t.ci = s.ci + 1 ∧
      t.work = { s.work with
        c := c, prevEntry := p, currEntry := b :: r, newEntry := p ++ [b], emitted := b :: r, key := t.work.key } ∧
      t.maxSize = s.maxSize ∧ SameHost s t ∧ SameStatus s t ∧ SameExtractor s t ∧ SameControl s t

/-- R124 (with R106, R108, R129): Case B, for every operation that decodes an absent code word; "the key just inserted"
becomes `prev_code`. -/
def Obligations.SelfrefStep : Prop :=
  ∀ (s : State) (c : CodeWord) (i : Instr) (r : Str) (b : Byte), SelfrefForm c s i →
    s.prevCode.toNat < s.dictSize.toNat → dictRead s.dict s.prevCode.toNat = some (b :: r) → s.maxSize.toNat ≤ 4096 →
    ∃ t, exec i s = .next t ∧ Appended ((b :: r) ++ [b]) s t ∧
      Inserted (insertKey s.maxSize.toNat s.dictSize.toNat) ((b :: r) ++ [b]) s t ∧
      t.prevCode.toNat = insertKey s.maxSize.toNat s.dictSize.toNat ∧ t.ci = s.ci + 1 ∧
      t.work = { s.work with
        c := c, prevEntry := b :: r, newEntry := (b :: r) ++ [b], emitted := (b :: r) ++ [b], key := t.work.key } ∧
      t.maxSize = s.maxSize ∧ SameHost s t ∧ SameStatus s t ∧ SameExtractor s t ∧ SameControl s t

/-- 42_decoder_sequence.md section 2 (R124 corner case 1): the value of an absent code word does not matter. -/
def Obligations.SelfrefIgnoresTheCode : Prop :=
  ∀ (s t : State) (c c' : CodeWord), exec (.dSelfref c) s = .next t → exec (.dSelfref c') s = .next (latchWord c' t)

/-- R212, R174: the step after a main-loop step faults exactly when that step was a reset step of D.KNOWN with a code word
of 257 or more. -/
def Obligations.FaultExactlyAfterResetWithHighCode : Prop :=
  ∀ (s t : State) (c : CodeWord), Sound s → s.fsm = .sFetch → readCode s s.ci = .next c → step s = .next t →
    t.fsm = .sFetch →
    ∃ u, step t = .next u ∧
      (u.phase = .fault ↔ s.maxSize.toNat ≤ s.dictSize.toNat ∧ present s c ∧ 257 ≤ c.toNat) ∧
      (u.phase = .fault → u.faultCode = some .internalInconsistency ∧ u.faultInfo.toNat = c.toNat)

/-- R192, R67: in the main loop no code word faults by itself; the only fault is that of an absent `prev_code`. -/
def Obligations.NoOtherFaultInTheLoop : Prop :=
  ∀ s t : State, Sound s → s.fsm = .sFetch → step s = .next t →
    (t.phase = .fault ↔ s.dictSize.toNat ≤ s.prevCode.toNat) ∧
    (t.phase ≠ .fault → t.ci = s.ci + 1 ∧ (t.fsm = .sDone ↔ s.ci + 1 = s.nCodes) ∧
      (t.fsm = .sFetch ↔ s.ci + 1 < s.nCodes))

/-- R126: from the seed step of a sound state the block decodes `CODES` as `decodeAll` says. -/
def Obligations.DecodingComputesDecode : Prop :=
  ∀ (s : State) (cs : List CodeWord), Sound s → s.fsm = .sSeed → s.outLen = 0 → s.nCodes = cs.length →
    (∀ i, i < cs.length → cellsRead s.codes i = cs[i]?) →
    ∃ n t, n ≤ cs.length ∧ stepRun n s = .next t ∧
      match decodeAll s.maxSize.toNat cs with
      | .ok out => t.fsm = .sDone ∧ t.phase ≠ .fault ∧ memReadBytes t.outMem 0 t.outLen = some out
      | .error e => t.phase = .fault ∧ t.faultCode = some e.1 ∧ t.faultInfo = BitVec.ofNat 16 e.2

/-- R146 and 95_test_vectors.md section 8 item 9: a decoded output is at least as long as the code stream and at most
`n (n + 1) / 2` bytes for `n` code words. -/
def Obligations.OutputLengthBounds : Prop :=
  ∀ (m : Nat) (cs : List CodeWord) (out : Str), decodeAll m cs = .ok out →
    cs.length ≤ out.length ∧ 2 * out.length ≤ cs.length * (cs.length + 1)

/-! ### The output accumulator -/

/-- R140, R142, R143: clear, append and commit, and what each leaves unchanged. -/
def Obligations.AccumulatorOperations : Prop :=
  ∀ (s : State) (e : Str),
    exec .outClear s = .next { s with outMem := [], outLen := 0, outValid := false } ∧
    (∃ t, exec (.outAppend e) s = .next t ∧ Appended e s t ∧ SameHost s t ∧ SameStatus s t ∧ SameExtractor s t ∧
      SameDict s t ∧ SameIndex s t ∧ SameControl s t ∧ t.work = s.work) ∧
    exec .outCommit s = .next { s with outValid := true }

/-- R144: OUT.DISCARD clears the valid bit; nothing is said of `OUT` and `OUT_LEN`. -/
def Obligations.DiscardInvalidates : Prop :=
  ∀ s : State, ∃ t, exec .outDiscard s = .next t ∧ t.outValid = false ∧
    t.phase = s.phase ∧ t.faultCode = s.faultCode ∧ t.faultInfo = s.faultInfo ∧
    SameHost s t ∧ SameExtractor s t ∧ SameDict s t ∧ SameIndex s t ∧ t.fsm = s.fsm ∧ t.grow = s.grow ∧ t.work = s.work

/-- R35 (e), (f): while decoding, `CODES` and `N_CODES` do not change and `OUT` only grows at its end. -/
def Obligations.OutputOnlyGrows : Prop :=
  ∀ s t : State, s.fsm.decoding = true → step s = .next t →
    t.codes = s.codes ∧ t.nCodes = s.nCodes ∧
    (t.phase ≠ .fault → s.outLen ≤ t.outLen ∧ ∀ a, a < s.outLen → cellsRead t.outMem a = cellsRead s.outMem a)

/-! ### Run control and faults -/

/-- R153, R172: the configuration check latches `M` for the five legal exponents and raises ConfigurationError for every
other value of the 4-bit field. -/
def Obligations.ConfigurationCheck : Prop :=
  ∀ s : State,
    (8 ≤ s.dictExp.toNat → s.dictExp.toNat ≤ 12 → ∃ t, exec .runCfgchk s = .next t ∧
      t.maxSize.toNat = 2 ^ s.dictExp.toNat ∧ t.phase = .config ∧ t.faultCode = s.faultCode ∧ t.outValid = s.outValid ∧
      t.faultInfo = s.faultInfo ∧ t.dictSize = s.dictSize ∧ t.dict = s.dict ∧
      SameHost s t ∧ SameExtractor s t ∧ SameIndex s t ∧ SameOutput s t ∧ SameControl s t ∧ t.work = s.work) ∧
    (s.dictExp.toNat < 8 ∨ 12 < s.dictExp.toNat → ∃ t, exec .runCfgchk s = .next t ∧
      Raised .configurationError s.dictExp.toNat s t ∧ t.work = s.work)

/-- R155: RUN.DONE makes the output valid and ends the run. -/
def Obligations.RunDoneCommits : Prop :=
  ∀ s : State, exec .runDone s = .next { s with outValid := true, phase := .done }

/-- R180: the fault entry. -/
def Obligations.FaultEntry : Prop :=
  ∀ (s : State) (f : RunFault) (info : Nat), ∃ t, exec (.runFault f info) s = .next t ∧ Raised f info s t ∧
    t.work = s.work ∧ t.faultInfo.toNat = info % 65536

/-- R29, R170: the layout of `STATUS` and the numbers of the phases and of the faults. -/
def Obligations.StatusWord : Prop :=
  ∀ s : State,
    (hostReadStatus s).extractLsb' 0 3 = s.phase.bits ∧ (hostReadStatus s).extractLsb' 3 3 = faultBits s.faultCode ∧
    (hostReadStatus s).getLsbD 6 = s.outValid ∧
    (Phase.idle.bits = 0 ∧ Phase.extract.bits = 1 ∧ Phase.config.bits = 2 ∧ Phase.seed.bits = 3 ∧ Phase.loop.bits = 4 ∧
      Phase.done.bits = 5 ∧ Phase.fault.bits = 6) ∧
    (faultBits none = 0 ∧ faultBits (some .sourceUnavailable) = 1 ∧ faultBits (some .configurationError) = 2 ∧
      faultBits (some .unknownSeedCode) = 3 ∧ faultBits (some .internalInconsistency) = 4 ∧
      faultBits (some .malformedLength) = 5) ∧
    (StatusOk s → (((hostReadStatus s).extractLsb' 3 3 ≠ 0 ↔ s.phase = .fault) ∧
      ((hostReadStatus s).getLsbD 6 = true ↔ s.phase = .done)))

/-- 20_memory.md section 7 (R56), 10_state.md section 7 (R31): where there is no cell, or nothing has written it, a read or
a write stops by name: an absent key or code word, an insertion above slot 4095, a code word at or beyond `N_CODES`, and
an unwritten slot, code word or byte of a triple. That the model stops there is its choice (DESIGN CHOICE, log 4, log 5). -/
def Obligations.OutOfRangeAccessStops : Prop :=
  ∀ s : State,
    (∀ dst k, s.dictSize.toNat ≤ BitVec.toNat k → exec (.dictLookup dst k) s = .fault (.readOutside .dict k.toNat)) ∧
    (∀ c : CodeWord, prevPresent s → (∃ p, dictRead s.dict s.prevCode.toNat = some p) → s.dictSize.toNat ≤ c.toNat →
      exec (.dKnown c) s = .fault (.readOutside .dict c.toNat)) ∧
    (∀ e, 4096 ≤ s.dictSize.toNat → exec (.dictInsert e) s = .fault (.writeOutside .dict s.dictSize.toNat)) ∧
    (∀ dst k, BitVec.toNat k < s.dictSize.toNat → dictRead s.dict k.toNat = none →
      exec (.dictLookup dst k) s = .fault (.readUnwritten .dict k.toNat)) ∧
    (s.fsm = .sSeed ∨ s.fsm = .sFetch →
      (s.nCodes ≤ s.ci → step s = .fault (.readOutside .codes s.ci)) ∧
      (s.ci < s.nCodes → cellsRead s.codes s.ci = none → step s = .fault (.readUnwritten .codes s.ci))) ∧
    (∀ d, d < 3 → s.fsm = .sXwalk → s.bi + d < s.inLen → (∀ j, j < d → cellsRead s.inMem (s.bi + j) ≠ none) →
      cellsRead s.inMem (s.bi + d) = none → step s = .fault (.readUnwritten .input (s.bi + d)))

/-! ### Steps -/

/-- A step where the block stands at a word of the stream is the operation the decoder reads there, followed by the
sequencing of R156; a pending START is dropped. The size of a step is this model's (DESIGN CHOICE, log 7, log 11). -/
def Obligations.StepRunsDecodedWord : Prop :=
  ∀ (s : State) (slot : Slot) (bytes : List Byte) (i : Instr), StandsAt s slot bytes → decode slot bytes = .ok i →
    i.wf = true → step s = andThen (exec i (consumeStart s)) fun t => .next (afterOp s.fsm t)

/-- R152, R156, R75: a step that no bits select is the operation the sequencer names. The size of a step is this model's
(DESIGN CHOICE, log 6, log 7). -/
def Obligations.StepRunsSequencedOperation : Prop :=
  ∀ s : State,
    let runs := fun i => step s = andThen (exec i (consumeStart s)) fun t => .next (afterOp s.fsm t)
    (waiting s = true → s.start = true → runs .runStart) ∧
    (s.fsm = .sXsel → s.inLen = 0 → runs .xEmpty) ∧
    (s.fsm = .sXsel → s.inLen = 1 → runs .xOne) ∧
    (s.fsm = .sXtail → s.inLen % 3 = 2 → runs .xTail2) ∧
    (s.fsm = .sCfg → runs .runCfgchk) ∧
    (s.fsm = .sInit → runs .dictInit) ∧
    (s.fsm = .sDone → s.phase ≠ .done → runs .runDone)

/-- R75: at `ci >= 1` the presence test selects D.KNOWN or D.SELFREF, and at `ci = 0` the operation is D.SEED. -/
def Obligations.PresenceTestSelects : Prop :=
  ∀ (s : State) (c : CodeWord), 256 ≤ s.dictSize.toNat → s.dictSize.toNat ≤ 4096 → readCode s s.ci = .next c →
    let runs := fun i => step s = andThen (exec i (consumeStart s)) fun t => .next (afterOp s.fsm t)
    (s.fsm = .sFetch → s.ci ≠ 0 → c.toNat < s.dictSize.toNat → runs (.dKnown c)) ∧
    (s.fsm = .sFetch → s.ci ≠ 0 → s.dictSize.toNat ≤ c.toNat → runs (.dSelfref c)) ∧
    (s.fsm = .sSeed → s.ci = 0 → runs (.dSeed c))

/-- R156, R109: the states `S_FETCH` to `S_NEXT`, with those of the overflow-reset machine, do in at most 8 steps exactly
what one main-loop step does, also where it stops. The coarse step is this model's (DESIGN CHOICE, log 7). -/
def Obligations.FinerMachineRefines : Prop :=
  ∀ s : State, s.fsm = .sFetch → s.phase = .loop → s.grow = .gIdle → s.ci ≠ 0 →
    256 ≤ s.dictSize.toNat → s.dictSize.toNat ≤ 4096 →
    ∃ n, 1 ≤ n ∧ n ≤ 8 ∧ microRun n s = step s

/-- R21, R27, R208: no operation and no step writes `IN`, `IN_LEN`, `CFG` or `CTRL.SRC_OK`. -/
def Obligations.CoreNeverWritesHostState : Prop :=
  (∀ (i : Instr) (s t : State), exec i s = .next t → SameHost s t) ∧
  (∀ s t : State, step s = .next t →
    t.dictExp = s.dictExp ∧ t.srcOk = s.srcOk ∧ t.inLen = s.inLen ∧ t.inMem = s.inMem)

/-! ### Invariants -/

/-- The spaces keep their canonical form, in every operation and every step. The form is this model's (DESIGN CHOICE,
log 4). -/
def Obligations.CanonicalFormKept : Prop :=
  (∀ (i : Instr) (s t : State), Canonical s → exec i s = .next t → Canonical t) ∧
  (∀ s t : State, Canonical s → step s = .next t → Canonical t)

/-- R29, R156: FAULT_CODE is nonzero exactly in FAULT, OUT_VALID is 1 exactly in DONE, and PHASE is that of the state
machine, after every step; before RUN.DONE has run, `S_DONE` shows the phase it was entered from (DESIGN CHOICE, log 12). -/
def Obligations.StatusKept : Prop :=
  ∀ s t : State, ControlOk s → StatusOk s → step s = .next t → ControlOk t ∧ StatusOk t

/-- R31, R35, R56, R110: from a sound state every step, of this machine and of the finer one, goes on to a sound state:
no read of an unwritten cell, no access outside a space, `dict_size` on its schedule. -/
def Obligations.SoundStepGoesOn : Prop :=
  ∀ s : State, Sound s → (∃ t, step s = .next t ∧ Sound t) ∧ ∃ t, microStep s = .next t ∧ Sound t

/-- R35 (d): `prev_code` names a live slot at every boundary of a decoder step but directly after a reset step of D.KNOWN
with a code word of 257 or more. -/
def Obligations.PrevCodeLive : Prop :=
  ∀ (s t : State) (c : CodeWord), Sound s → (s.fsm = .sSeed ∨ s.fsm = .sFetch) → readCode s s.ci = .next c →
    step s = .next t → t.phase ≠ .fault →
    (t.prevCode.toNat < t.dictSize.toNat ↔ ¬ (s.fsm = .sFetch ∧ full s ∧ present s c ∧ 257 ≤ c.toNat))

/-- The state after power-on is sound. -/
def Obligations.PowerOnIsSound : Prop := Sound State.reset

/-- R160: a run computes the function of its inputs and takes the start with it, so the block then waits for the next one.
The bound counts this model's steps (DESIGN CHOICE, log 6, log 7, log 12). -/
def Obligations.RunComputesItsFunction : Prop :=
  ∀ (s : State) (bytes : List Byte), Canonical s → ControlOk s → waiting s = true → s.start = true →
    memReadBytes s.inMem 0 s.inLen = some bytes →
    ∃ n t, 1 ≤ n ∧ n ≤ s.inLen / 3 + codeCount s.inLen + 6 ∧ stepRun n s = .next t ∧ waiting t = true ∧ t.start = false ∧
      EndsIn (runResult s.srcOk bytes s.dictExp) t

/-- R158, R160: restarting with the same inputs gives the same result, whatever the earlier run was. The load is the host's
(R206), in one move of this model (DESIGN CHOICE, log 10, log 11). -/
def Obligations.HostLoadRuns : Prop :=
  ∀ (s t : State) (bytes : List Byte) (e : BitVec 4), Canonical s → ControlOk s → hostLoad bytes e s = some t →
    ∃ n u, 1 ≤ n ∧ stepRun n t = .next u ∧ waiting u = true ∧ u.start = false ∧ EndsIn (runResult true bytes e) u

/-! ### The host's port -/

/-- R27, R28, R30, R206: what a write of the host does while it may write. Bit 0 of `CTRL` is START and bit 1 SRC_OK; that
START waits in a bit for the next step, and that a write of both stores both, is this model's (DESIGN CHOICE, log 11,
log 20), and so is the load in one move (log 10). -/
def Obligations.HostWritesItsRegisters : Prop :=
  ∀ s : State, s.phase.quiet = true → s.start = false →
    (∀ e, hostWriteCfg e s = some { s with dictExp := e }) ∧
    (∀ w, hostWriteCtrl w s = some { s with start := w.getLsbD 0, srcOk := w.getLsbD 1 }) ∧
    (∀ n, hostWriteInLen n s = some { s with inLen := n }) ∧
    (∀ a b, ∃ t, hostWriteIn a b s = some t ∧ t = { s with inMem := t.inMem } ∧ cellsRead t.inMem a = some b ∧
      ∀ k, k ≠ a → cellsRead t.inMem k = cellsRead s.inMem k) ∧
    (∀ bytes e, ∃ t, hostLoad bytes e s = some t ∧ memReadBytes t.inMem 0 t.inLen = some bytes ∧
      t = { s with dictExp := e, srcOk := true, start := true, inLen := bytes.length, inMem := t.inMem })

/-- R208, R28: from the write of START to the end of the run the host writes nothing; a write of `CTRL` that keeps SRC_OK
is allowed and ignored. That the port refuses the others is this model's (DEDUCED, log 11). -/
def Obligations.HostWritesNothingInARun : Prop :=
  ∀ s : State, s.phase.quiet = false ∨ s.start = true →
    (∀ e, hostWriteCfg e s = none) ∧ (∀ n, hostWriteInLen n s = none) ∧ (∀ a b, hostWriteIn a b s = none) ∧
    (∀ bytes e, hostLoad bytes e s = none) ∧
    (∀ w : BitVec 2, (w.getLsbD 1 = s.srcOk → hostWriteCtrl w s = some s) ∧
      (w.getLsbD 1 ≠ s.srcOk → hostWriteCtrl w s = none))

/-- R27, R28, R30, R145: what the host reads: its own registers always, the output in DONE byte by byte and as one string,
`FAULT_INFO` in FAULT. That the port answers nothing elsewhere, and that a pending START changes no read, is this model's
(DESIGN CHOICE, log 11, log 22). -/
def Obligations.HostReadsItsPort : Prop :=
  ∀ s : State,
    hostReadCfg s = s.dictExp ∧ hostReadSrcOk s = s.srcOk ∧
    (s.phase = .done → hostReadOutLen s = some s.outLen ∧ (∀ i, i < s.outLen → hostReadOut i s = cellsRead s.outMem i) ∧
      ∀ out, hostReadResult s = some out → out.length = s.outLen ∧ ∀ i, hostReadOut i s = out[i]?) ∧
    (s.phase ≠ .done → hostReadOutLen s = none ∧ (∀ i, hostReadOut i s = none) ∧ hostReadResult s = none) ∧
    (s.phase = .fault → hostReadFaultInfo s = some s.faultInfo) ∧ (s.phase ≠ .fault → hostReadFaultInfo s = none)
end

