-- ==== Sys2Proof/Laws/State.lean ====
section
/-! SUPPORT. One lemma per field per named update of the state. -/

namespace Sys2Proof.Machine

variable (s : State)

/-! ### outClear -/

@[simp] theorem outClear_dictExp : (outClear s).dictExp = s.dictExp := rfl
@[simp] theorem outClear_start : (outClear s).start = s.start := rfl
@[simp] theorem outClear_srcOk : (outClear s).srcOk = s.srcOk := rfl
@[simp] theorem outClear_phase : (outClear s).phase = s.phase := rfl
@[simp] theorem outClear_faultCode : (outClear s).faultCode = s.faultCode := rfl
@[simp] theorem outClear_outValid : (outClear s).outValid = false := rfl
@[simp] theorem outClear_faultInfo : (outClear s).faultInfo = s.faultInfo := rfl
@[simp] theorem outClear_inLen : (outClear s).inLen = s.inLen := rfl
@[simp] theorem outClear_nCodes : (outClear s).nCodes = s.nCodes := rfl
@[simp] theorem outClear_outLen : (outClear s).outLen = 0 := rfl
@[simp] theorem outClear_bi : (outClear s).bi = s.bi := rfl
@[simp] theorem outClear_ci : (outClear s).ci = s.ci := rfl
@[simp] theorem outClear_prevCode : (outClear s).prevCode = s.prevCode := rfl
@[simp] theorem outClear_dictSize : (outClear s).dictSize = s.dictSize := rfl
@[simp] theorem outClear_maxSize : (outClear s).maxSize = s.maxSize := rfl
@[simp] theorem outClear_inMem : (outClear s).inMem = s.inMem := rfl
@[simp] theorem outClear_codes : (outClear s).codes = s.codes := rfl
@[simp] theorem outClear_dict : (outClear s).dict = s.dict := rfl
@[simp] theorem outClear_outMem : (outClear s).outMem = [] := rfl
@[simp] theorem outClear_work : (outClear s).work = s.work := rfl
@[simp] theorem outClear_fsm : (outClear s).fsm = s.fsm := rfl
@[simp] theorem outClear_grow : (outClear s).grow = s.grow := rfl
@[simp] theorem outClear_freeCount : (outClear s).freeCount = s.freeCount := rfl

/-! ### outAppend -/

@[simp] theorem outAppend_dictExp (t : Str) : (outAppend t s).dictExp = s.dictExp := rfl
@[simp] theorem outAppend_start (t : Str) : (outAppend t s).start = s.start := rfl
@[simp] theorem outAppend_srcOk (t : Str) : (outAppend t s).srcOk = s.srcOk := rfl
@[simp] theorem outAppend_phase (t : Str) : (outAppend t s).phase = s.phase := rfl
@[simp] theorem outAppend_faultCode (t : Str) : (outAppend t s).faultCode = s.faultCode := rfl
@[simp] theorem outAppend_outValid (t : Str) : (outAppend t s).outValid = s.outValid := rfl
@[simp] theorem outAppend_faultInfo (t : Str) : (outAppend t s).faultInfo = s.faultInfo := rfl
@[simp] theorem outAppend_inLen (t : Str) : (outAppend t s).inLen = s.inLen := rfl
@[simp] theorem outAppend_nCodes (t : Str) : (outAppend t s).nCodes = s.nCodes := rfl
@[simp] theorem outAppend_outLen (t : Str) : (outAppend t s).outLen = s.outLen + t.length := rfl
@[simp] theorem outAppend_bi (t : Str) : (outAppend t s).bi = s.bi := rfl
@[simp] theorem outAppend_ci (t : Str) : (outAppend t s).ci = s.ci := rfl
@[simp] theorem outAppend_prevCode (t : Str) : (outAppend t s).prevCode = s.prevCode := rfl
@[simp] theorem outAppend_dictSize (t : Str) : (outAppend t s).dictSize = s.dictSize := rfl
@[simp] theorem outAppend_maxSize (t : Str) : (outAppend t s).maxSize = s.maxSize := rfl
@[simp] theorem outAppend_inMem (t : Str) : (outAppend t s).inMem = s.inMem := rfl
@[simp] theorem outAppend_codes (t : Str) : (outAppend t s).codes = s.codes := rfl
@[simp] theorem outAppend_dict (t : Str) : (outAppend t s).dict = s.dict := rfl
@[simp] theorem outAppend_outMem (t : Str) : (outAppend t s).outMem = memWriteBytes s.outMem s.outLen t := rfl
@[simp] theorem outAppend_work (t : Str) : (outAppend t s).work = s.work := rfl
@[simp] theorem outAppend_fsm (t : Str) : (outAppend t s).fsm = s.fsm := rfl
@[simp] theorem outAppend_grow (t : Str) : (outAppend t s).grow = s.grow := rfl
@[simp] theorem outAppend_freeCount (t : Str) : (outAppend t s).freeCount = s.freeCount := rfl

/-! ### outCommit -/

@[simp] theorem outCommit_dictExp : (outCommit s).dictExp = s.dictExp := rfl
@[simp] theorem outCommit_start : (outCommit s).start = s.start := rfl
@[simp] theorem outCommit_srcOk : (outCommit s).srcOk = s.srcOk := rfl
@[simp] theorem outCommit_phase : (outCommit s).phase = s.phase := rfl
@[simp] theorem outCommit_faultCode : (outCommit s).faultCode = s.faultCode := rfl
@[simp] theorem outCommit_outValid : (outCommit s).outValid = true := rfl
@[simp] theorem outCommit_faultInfo : (outCommit s).faultInfo = s.faultInfo := rfl
@[simp] theorem outCommit_inLen : (outCommit s).inLen = s.inLen := rfl
@[simp] theorem outCommit_nCodes : (outCommit s).nCodes = s.nCodes := rfl
@[simp] theorem outCommit_outLen : (outCommit s).outLen = s.outLen := rfl
@[simp] theorem outCommit_bi : (outCommit s).bi = s.bi := rfl
@[simp] theorem outCommit_ci : (outCommit s).ci = s.ci := rfl
@[simp] theorem outCommit_prevCode : (outCommit s).prevCode = s.prevCode := rfl
@[simp] theorem outCommit_dictSize : (outCommit s).dictSize = s.dictSize := rfl
@[simp] theorem outCommit_maxSize : (outCommit s).maxSize = s.maxSize := rfl
@[simp] theorem outCommit_inMem : (outCommit s).inMem = s.inMem := rfl
@[simp] theorem outCommit_codes : (outCommit s).codes = s.codes := rfl
@[simp] theorem outCommit_dict : (outCommit s).dict = s.dict := rfl
@[simp] theorem outCommit_outMem : (outCommit s).outMem = s.outMem := rfl
@[simp] theorem outCommit_work : (outCommit s).work = s.work := rfl
@[simp] theorem outCommit_fsm : (outCommit s).fsm = s.fsm := rfl
@[simp] theorem outCommit_grow : (outCommit s).grow = s.grow := rfl
@[simp] theorem outCommit_freeCount : (outCommit s).freeCount = s.freeCount := rfl

/-! ### outDiscard -/

@[simp] theorem outDiscard_dictExp : (outDiscard s).dictExp = s.dictExp := rfl
@[simp] theorem outDiscard_start : (outDiscard s).start = s.start := rfl
@[simp] theorem outDiscard_srcOk : (outDiscard s).srcOk = s.srcOk := rfl
@[simp] theorem outDiscard_phase : (outDiscard s).phase = s.phase := rfl
@[simp] theorem outDiscard_faultCode : (outDiscard s).faultCode = s.faultCode := rfl
@[simp] theorem outDiscard_outValid : (outDiscard s).outValid = false := rfl
@[simp] theorem outDiscard_faultInfo : (outDiscard s).faultInfo = s.faultInfo := rfl
@[simp] theorem outDiscard_inLen : (outDiscard s).inLen = s.inLen := rfl
@[simp] theorem outDiscard_nCodes : (outDiscard s).nCodes = s.nCodes := rfl
@[simp] theorem outDiscard_outLen : (outDiscard s).outLen = Config.freeNat s.freeCount := rfl
@[simp] theorem outDiscard_bi : (outDiscard s).bi = s.bi := rfl
@[simp] theorem outDiscard_ci : (outDiscard s).ci = s.ci := rfl
@[simp] theorem outDiscard_prevCode : (outDiscard s).prevCode = s.prevCode := rfl
@[simp] theorem outDiscard_dictSize : (outDiscard s).dictSize = s.dictSize := rfl
@[simp] theorem outDiscard_maxSize : (outDiscard s).maxSize = s.maxSize := rfl
@[simp] theorem outDiscard_inMem : (outDiscard s).inMem = s.inMem := rfl
@[simp] theorem outDiscard_codes : (outDiscard s).codes = s.codes := rfl
@[simp] theorem outDiscard_dict : (outDiscard s).dict = s.dict := rfl
@[simp] theorem outDiscard_outMem : (outDiscard s).outMem = memWriteBytes [] 0 (Config.freeString s.freeCount) := rfl
@[simp] theorem outDiscard_work : (outDiscard s).work = s.work := rfl
@[simp] theorem outDiscard_fsm : (outDiscard s).fsm = s.fsm := rfl
@[simp] theorem outDiscard_grow : (outDiscard s).grow = s.grow := rfl
@[simp] theorem outDiscard_freeCount : (outDiscard s).freeCount = s.freeCount + 1 := rfl

/-! ### raiseFault -/

@[simp] theorem raiseFault_dictExp (f : RunFault) (info : Nat) : (raiseFault f info s).dictExp = s.dictExp := rfl
@[simp] theorem raiseFault_start (f : RunFault) (info : Nat) : (raiseFault f info s).start = s.start := rfl
@[simp] theorem raiseFault_srcOk (f : RunFault) (info : Nat) : (raiseFault f info s).srcOk = s.srcOk := rfl
@[simp] theorem raiseFault_phase (f : RunFault) (info : Nat) : (raiseFault f info s).phase = .fault := rfl
@[simp] theorem raiseFault_faultCode (f : RunFault) (info : Nat) : (raiseFault f info s).faultCode = some f := rfl
@[simp] theorem raiseFault_outValid (f : RunFault) (info : Nat) : (raiseFault f info s).outValid = false := rfl
@[simp] theorem raiseFault_faultInfo (f : RunFault) (info : Nat) : (raiseFault f info s).faultInfo = BitVec.ofNat 16 info := rfl
@[simp] theorem raiseFault_inLen (f : RunFault) (info : Nat) : (raiseFault f info s).inLen = s.inLen := rfl
@[simp] theorem raiseFault_nCodes (f : RunFault) (info : Nat) : (raiseFault f info s).nCodes = s.nCodes := rfl
@[simp] theorem raiseFault_outLen (f : RunFault) (info : Nat) : (raiseFault f info s).outLen = Config.freeNat s.freeCount := rfl
@[simp] theorem raiseFault_bi (f : RunFault) (info : Nat) : (raiseFault f info s).bi = s.bi := rfl
@[simp] theorem raiseFault_ci (f : RunFault) (info : Nat) : (raiseFault f info s).ci = s.ci := rfl
@[simp] theorem raiseFault_prevCode (f : RunFault) (info : Nat) : (raiseFault f info s).prevCode = s.prevCode := rfl
@[simp] theorem raiseFault_dictSize (f : RunFault) (info : Nat) : (raiseFault f info s).dictSize = s.dictSize := rfl
@[simp] theorem raiseFault_maxSize (f : RunFault) (info : Nat) : (raiseFault f info s).maxSize = s.maxSize := rfl
@[simp] theorem raiseFault_inMem (f : RunFault) (info : Nat) : (raiseFault f info s).inMem = s.inMem := rfl
@[simp] theorem raiseFault_codes (f : RunFault) (info : Nat) : (raiseFault f info s).codes = s.codes := rfl
@[simp] theorem raiseFault_dict (f : RunFault) (info : Nat) : (raiseFault f info s).dict = s.dict := rfl
@[simp] theorem raiseFault_outMem (f : RunFault) (info : Nat) : (raiseFault f info s).outMem = memWriteBytes [] 0 (Config.freeString s.freeCount) := rfl
@[simp] theorem raiseFault_work (f : RunFault) (info : Nat) : (raiseFault f info s).work = s.work := rfl
@[simp] theorem raiseFault_fsm (f : RunFault) (info : Nat) : (raiseFault f info s).fsm = .sFault := rfl
@[simp] theorem raiseFault_grow (f : RunFault) (info : Nat) : (raiseFault f info s).grow = .gIdle := rfl
@[simp] theorem raiseFault_freeCount (f : RunFault) (info : Nat) : (raiseFault f info s).freeCount = s.freeCount + 1 := rfl

/-! ### beginRun -/

@[simp] theorem beginRun_dictExp : (beginRun s).dictExp = s.dictExp := rfl
@[simp] theorem beginRun_start : (beginRun s).start = s.start := rfl
@[simp] theorem beginRun_srcOk : (beginRun s).srcOk = s.srcOk := rfl
@[simp] theorem beginRun_phase : (beginRun s).phase = .extract := rfl
@[simp] theorem beginRun_faultCode : (beginRun s).faultCode = none := rfl
@[simp] theorem beginRun_outValid : (beginRun s).outValid = false := rfl
@[simp] theorem beginRun_faultInfo : (beginRun s).faultInfo = Config.freeBits 16 (s.freeCount + 2) := rfl
@[simp] theorem beginRun_inLen : (beginRun s).inLen = s.inLen := rfl
@[simp] theorem beginRun_nCodes : (beginRun s).nCodes = 0 := rfl
@[simp] theorem beginRun_outLen : (beginRun s).outLen = 0 := rfl
@[simp] theorem beginRun_bi : (beginRun s).bi = 0 := rfl
@[simp] theorem beginRun_ci : (beginRun s).ci = Config.freeNat s.freeCount := rfl
@[simp] theorem beginRun_prevCode : (beginRun s).prevCode = Config.freeBits 12 (s.freeCount + 2) := rfl
@[simp] theorem beginRun_dictSize : (beginRun s).dictSize = Config.freeBits 13 (s.freeCount + 1) := rfl
@[simp] theorem beginRun_maxSize : (beginRun s).maxSize = Config.freeBits 13 (s.freeCount + 2) := rfl
@[simp] theorem beginRun_inMem : (beginRun s).inMem = s.inMem := rfl
@[simp] theorem beginRun_codes : (beginRun s).codes = [] := rfl
@[simp] theorem beginRun_dict : (beginRun s).dict = [] := rfl
@[simp] theorem beginRun_outMem : (beginRun s).outMem = [] := rfl
@[simp] theorem beginRun_work : (beginRun s).work = freeWork s.freeCount := rfl
@[simp] theorem beginRun_fsm : (beginRun s).fsm = s.fsm := rfl
@[simp] theorem beginRun_grow : (beginRun s).grow = .gIdle := rfl
@[simp] theorem beginRun_freeCount : (beginRun s).freeCount = s.freeCount + 4 := rfl

/-! ### writeCode -/

@[simp] theorem writeCode_dictExp (i : Nat) (v : CodeWord) : (writeCode i v s).dictExp = s.dictExp := rfl
@[simp] theorem writeCode_start (i : Nat) (v : CodeWord) : (writeCode i v s).start = s.start := rfl
@[simp] theorem writeCode_srcOk (i : Nat) (v : CodeWord) : (writeCode i v s).srcOk = s.srcOk := rfl
@[simp] theorem writeCode_phase (i : Nat) (v : CodeWord) : (writeCode i v s).phase = s.phase := rfl
@[simp] theorem writeCode_faultCode (i : Nat) (v : CodeWord) : (writeCode i v s).faultCode = s.faultCode := rfl
@[simp] theorem writeCode_outValid (i : Nat) (v : CodeWord) : (writeCode i v s).outValid = s.outValid := rfl
@[simp] theorem writeCode_faultInfo (i : Nat) (v : CodeWord) : (writeCode i v s).faultInfo = s.faultInfo := rfl
@[simp] theorem writeCode_inLen (i : Nat) (v : CodeWord) : (writeCode i v s).inLen = s.inLen := rfl
@[simp] theorem writeCode_nCodes (i : Nat) (v : CodeWord) : (writeCode i v s).nCodes = s.nCodes := rfl
@[simp] theorem writeCode_outLen (i : Nat) (v : CodeWord) : (writeCode i v s).outLen = s.outLen := rfl
@[simp] theorem writeCode_bi (i : Nat) (v : CodeWord) : (writeCode i v s).bi = s.bi := rfl
@[simp] theorem writeCode_ci (i : Nat) (v : CodeWord) : (writeCode i v s).ci = s.ci := rfl
@[simp] theorem writeCode_prevCode (i : Nat) (v : CodeWord) : (writeCode i v s).prevCode = s.prevCode := rfl
@[simp] theorem writeCode_dictSize (i : Nat) (v : CodeWord) : (writeCode i v s).dictSize = s.dictSize := rfl
@[simp] theorem writeCode_maxSize (i : Nat) (v : CodeWord) : (writeCode i v s).maxSize = s.maxSize := rfl
@[simp] theorem writeCode_inMem (i : Nat) (v : CodeWord) : (writeCode i v s).inMem = s.inMem := rfl
@[simp] theorem writeCode_codes (i : Nat) (v : CodeWord) : (writeCode i v s).codes = cellsPut s.codes i v := rfl
@[simp] theorem writeCode_dict (i : Nat) (v : CodeWord) : (writeCode i v s).dict = s.dict := rfl
@[simp] theorem writeCode_outMem (i : Nat) (v : CodeWord) : (writeCode i v s).outMem = s.outMem := rfl
@[simp] theorem writeCode_work (i : Nat) (v : CodeWord) : (writeCode i v s).work = s.work := rfl
@[simp] theorem writeCode_fsm (i : Nat) (v : CodeWord) : (writeCode i v s).fsm = s.fsm := rfl
@[simp] theorem writeCode_grow (i : Nat) (v : CodeWord) : (writeCode i v s).grow = s.grow := rfl
@[simp] theorem writeCode_freeCount (i : Nat) (v : CodeWord) : (writeCode i v s).freeCount = s.freeCount := rfl

/-! ### writeEntry -/

@[simp] theorem writeEntry_dictExp (dst : EntryReg) (t : Str) : (writeEntry dst t s).dictExp = s.dictExp := rfl
@[simp] theorem writeEntry_start (dst : EntryReg) (t : Str) : (writeEntry dst t s).start = s.start := rfl
@[simp] theorem writeEntry_srcOk (dst : EntryReg) (t : Str) : (writeEntry dst t s).srcOk = s.srcOk := rfl
@[simp] theorem writeEntry_phase (dst : EntryReg) (t : Str) : (writeEntry dst t s).phase = s.phase := rfl
@[simp] theorem writeEntry_faultCode (dst : EntryReg) (t : Str) : (writeEntry dst t s).faultCode = s.faultCode := rfl
@[simp] theorem writeEntry_outValid (dst : EntryReg) (t : Str) : (writeEntry dst t s).outValid = s.outValid := rfl
@[simp] theorem writeEntry_faultInfo (dst : EntryReg) (t : Str) : (writeEntry dst t s).faultInfo = s.faultInfo := rfl
@[simp] theorem writeEntry_inLen (dst : EntryReg) (t : Str) : (writeEntry dst t s).inLen = s.inLen := rfl
@[simp] theorem writeEntry_nCodes (dst : EntryReg) (t : Str) : (writeEntry dst t s).nCodes = s.nCodes := rfl
@[simp] theorem writeEntry_outLen (dst : EntryReg) (t : Str) : (writeEntry dst t s).outLen = s.outLen := rfl
@[simp] theorem writeEntry_bi (dst : EntryReg) (t : Str) : (writeEntry dst t s).bi = s.bi := rfl
@[simp] theorem writeEntry_ci (dst : EntryReg) (t : Str) : (writeEntry dst t s).ci = s.ci := rfl
@[simp] theorem writeEntry_prevCode (dst : EntryReg) (t : Str) : (writeEntry dst t s).prevCode = s.prevCode := rfl
@[simp] theorem writeEntry_dictSize (dst : EntryReg) (t : Str) : (writeEntry dst t s).dictSize = s.dictSize := rfl
@[simp] theorem writeEntry_maxSize (dst : EntryReg) (t : Str) : (writeEntry dst t s).maxSize = s.maxSize := rfl
@[simp] theorem writeEntry_inMem (dst : EntryReg) (t : Str) : (writeEntry dst t s).inMem = s.inMem := rfl
@[simp] theorem writeEntry_codes (dst : EntryReg) (t : Str) : (writeEntry dst t s).codes = s.codes := rfl
@[simp] theorem writeEntry_dict (dst : EntryReg) (t : Str) : (writeEntry dst t s).dict = s.dict := rfl
@[simp] theorem writeEntry_outMem (dst : EntryReg) (t : Str) : (writeEntry dst t s).outMem = s.outMem := rfl
@[simp] theorem writeEntry_work (dst : EntryReg) (t : Str) : (writeEntry dst t s).work = s.work.setEntry dst t := rfl
@[simp] theorem writeEntry_fsm (dst : EntryReg) (t : Str) : (writeEntry dst t s).fsm = s.fsm := rfl
@[simp] theorem writeEntry_grow (dst : EntryReg) (t : Str) : (writeEntry dst t s).grow = s.grow := rfl
@[simp] theorem writeEntry_freeCount (dst : EntryReg) (t : Str) : (writeEntry dst t s).freeCount = s.freeCount := rfl

/-! ### latchWord -/

@[simp] theorem latchWord_dictExp (c : CodeWord) : (latchWord c s).dictExp = s.dictExp := rfl
@[simp] theorem latchWord_start (c : CodeWord) : (latchWord c s).start = s.start := rfl
@[simp] theorem latchWord_srcOk (c : CodeWord) : (latchWord c s).srcOk = s.srcOk := rfl
@[simp] theorem latchWord_phase (c : CodeWord) : (latchWord c s).phase = s.phase := rfl
@[simp] theorem latchWord_faultCode (c : CodeWord) : (latchWord c s).faultCode = s.faultCode := rfl
@[simp] theorem latchWord_outValid (c : CodeWord) : (latchWord c s).outValid = s.outValid := rfl
@[simp] theorem latchWord_faultInfo (c : CodeWord) : (latchWord c s).faultInfo = s.faultInfo := rfl
@[simp] theorem latchWord_inLen (c : CodeWord) : (latchWord c s).inLen = s.inLen := rfl
@[simp] theorem latchWord_nCodes (c : CodeWord) : (latchWord c s).nCodes = s.nCodes := rfl
@[simp] theorem latchWord_outLen (c : CodeWord) : (latchWord c s).outLen = s.outLen := rfl
@[simp] theorem latchWord_bi (c : CodeWord) : (latchWord c s).bi = s.bi := rfl
@[simp] theorem latchWord_ci (c : CodeWord) : (latchWord c s).ci = s.ci := rfl
@[simp] theorem latchWord_prevCode (c : CodeWord) : (latchWord c s).prevCode = s.prevCode := rfl
@[simp] theorem latchWord_dictSize (c : CodeWord) : (latchWord c s).dictSize = s.dictSize := rfl
@[simp] theorem latchWord_maxSize (c : CodeWord) : (latchWord c s).maxSize = s.maxSize := rfl
@[simp] theorem latchWord_inMem (c : CodeWord) : (latchWord c s).inMem = s.inMem := rfl
@[simp] theorem latchWord_codes (c : CodeWord) : (latchWord c s).codes = s.codes := rfl
@[simp] theorem latchWord_dict (c : CodeWord) : (latchWord c s).dict = s.dict := rfl
@[simp] theorem latchWord_outMem (c : CodeWord) : (latchWord c s).outMem = s.outMem := rfl
@[simp] theorem latchWord_work (c : CodeWord) : (latchWord c s).work = { s.work with c := c } := rfl
@[simp] theorem latchWord_fsm (c : CodeWord) : (latchWord c s).fsm = s.fsm := rfl
@[simp] theorem latchWord_grow (c : CodeWord) : (latchWord c s).grow = s.grow := rfl
@[simp] theorem latchWord_freeCount (c : CodeWord) : (latchWord c s).freeCount = s.freeCount := rfl

/-! ### dictInit -/

@[simp] theorem dictInit_dictExp : (dictInit s).dictExp = s.dictExp := rfl
@[simp] theorem dictInit_start : (dictInit s).start = s.start := rfl
@[simp] theorem dictInit_srcOk : (dictInit s).srcOk = s.srcOk := rfl
@[simp] theorem dictInit_phase : (dictInit s).phase = s.phase := rfl
@[simp] theorem dictInit_faultCode : (dictInit s).faultCode = s.faultCode := rfl
@[simp] theorem dictInit_outValid : (dictInit s).outValid = s.outValid := rfl
@[simp] theorem dictInit_faultInfo : (dictInit s).faultInfo = s.faultInfo := rfl
@[simp] theorem dictInit_inLen : (dictInit s).inLen = s.inLen := rfl
@[simp] theorem dictInit_nCodes : (dictInit s).nCodes = s.nCodes := rfl
@[simp] theorem dictInit_outLen : (dictInit s).outLen = s.outLen := rfl
@[simp] theorem dictInit_bi : (dictInit s).bi = s.bi := rfl
@[simp] theorem dictInit_ci : (dictInit s).ci = s.ci := rfl
@[simp] theorem dictInit_prevCode : (dictInit s).prevCode = s.prevCode := rfl
@[simp] theorem dictInit_dictSize : (dictInit s).dictSize = 256 := rfl
@[simp] theorem dictInit_maxSize : (dictInit s).maxSize = s.maxSize := rfl
@[simp] theorem dictInit_inMem : (dictInit s).inMem = s.inMem := rfl
@[simp] theorem dictInit_codes : (dictInit s).codes = s.codes := rfl
@[simp] theorem dictInit_dict : (dictInit s).dict = copySnap Config.nInit s.dict := by rw [dictInit]
@[simp] theorem dictInit_outMem : (dictInit s).outMem = s.outMem := rfl
@[simp] theorem dictInit_work : (dictInit s).work = s.work := rfl
@[simp] theorem dictInit_fsm : (dictInit s).fsm = s.fsm := rfl
@[simp] theorem dictInit_grow : (dictInit s).grow = s.grow := rfl
@[simp] theorem dictInit_freeCount : (dictInit s).freeCount = s.freeCount := rfl

/-! ### dictReset -/

@[simp] theorem dictReset_dictExp : (dictReset s).dictExp = s.dictExp := rfl
@[simp] theorem dictReset_start : (dictReset s).start = s.start := rfl
@[simp] theorem dictReset_srcOk : (dictReset s).srcOk = s.srcOk := rfl
@[simp] theorem dictReset_phase : (dictReset s).phase = s.phase := rfl
@[simp] theorem dictReset_faultCode : (dictReset s).faultCode = s.faultCode := rfl
@[simp] theorem dictReset_outValid : (dictReset s).outValid = s.outValid := rfl
@[simp] theorem dictReset_faultInfo : (dictReset s).faultInfo = s.faultInfo := rfl
@[simp] theorem dictReset_inLen : (dictReset s).inLen = s.inLen := rfl
@[simp] theorem dictReset_nCodes : (dictReset s).nCodes = s.nCodes := rfl
@[simp] theorem dictReset_outLen : (dictReset s).outLen = s.outLen := rfl
@[simp] theorem dictReset_bi : (dictReset s).bi = s.bi := rfl
@[simp] theorem dictReset_ci : (dictReset s).ci = s.ci := rfl
@[simp] theorem dictReset_prevCode : (dictReset s).prevCode = s.prevCode := rfl
@[simp] theorem dictReset_dictSize : (dictReset s).dictSize = 256 := rfl
@[simp] theorem dictReset_maxSize : (dictReset s).maxSize = s.maxSize := rfl
@[simp] theorem dictReset_inMem : (dictReset s).inMem = s.inMem := rfl
@[simp] theorem dictReset_codes : (dictReset s).codes = s.codes := rfl
@[simp] theorem dictReset_dict : (dictReset s).dict = s.dict := rfl
@[simp] theorem dictReset_outMem : (dictReset s).outMem = s.outMem := rfl
@[simp] theorem dictReset_work : (dictReset s).work = s.work := rfl
@[simp] theorem dictReset_fsm : (dictReset s).fsm = s.fsm := rfl
@[simp] theorem dictReset_grow : (dictReset s).grow = s.grow := rfl
@[simp] theorem dictReset_freeCount : (dictReset s).freeCount = s.freeCount := rfl

/-! ### insertAt -/

@[simp] theorem insertAt_dictExp (t : Str) : (insertAt t s).dictExp = s.dictExp := rfl
@[simp] theorem insertAt_start (t : Str) : (insertAt t s).start = s.start := rfl
@[simp] theorem insertAt_srcOk (t : Str) : (insertAt t s).srcOk = s.srcOk := rfl
@[simp] theorem insertAt_phase (t : Str) : (insertAt t s).phase = s.phase := rfl
@[simp] theorem insertAt_faultCode (t : Str) : (insertAt t s).faultCode = s.faultCode := rfl
@[simp] theorem insertAt_outValid (t : Str) : (insertAt t s).outValid = s.outValid := rfl
@[simp] theorem insertAt_faultInfo (t : Str) : (insertAt t s).faultInfo = s.faultInfo := rfl
@[simp] theorem insertAt_inLen (t : Str) : (insertAt t s).inLen = s.inLen := rfl
@[simp] theorem insertAt_nCodes (t : Str) : (insertAt t s).nCodes = s.nCodes := rfl
@[simp] theorem insertAt_outLen (t : Str) : (insertAt t s).outLen = s.outLen := rfl
@[simp] theorem insertAt_bi (t : Str) : (insertAt t s).bi = s.bi := rfl
@[simp] theorem insertAt_ci (t : Str) : (insertAt t s).ci = s.ci := rfl
@[simp] theorem insertAt_prevCode (t : Str) : (insertAt t s).prevCode = s.prevCode := rfl
@[simp] theorem insertAt_dictSize (t : Str) : (insertAt t s).dictSize = s.dictSize + 1 := rfl
@[simp] theorem insertAt_maxSize (t : Str) : (insertAt t s).maxSize = s.maxSize := rfl
@[simp] theorem insertAt_inMem (t : Str) : (insertAt t s).inMem = s.inMem := rfl
@[simp] theorem insertAt_codes (t : Str) : (insertAt t s).codes = s.codes := rfl
@[simp] theorem insertAt_dict (t : Str) : (insertAt t s).dict = dictWrite s.dict s.dictSize.toNat t := rfl
@[simp] theorem insertAt_outMem (t : Str) : (insertAt t s).outMem = s.outMem := rfl
@[simp] theorem insertAt_work (t : Str) : (insertAt t s).work = { s.work with key := s.dictSize } := rfl
@[simp] theorem insertAt_fsm (t : Str) : (insertAt t s).fsm = s.fsm := rfl
@[simp] theorem insertAt_grow (t : Str) : (insertAt t s).grow = s.grow := rfl
@[simp] theorem insertAt_freeCount (t : Str) : (insertAt t s).freeCount = s.freeCount := rfl

/-! ### seedFinish -/

@[simp] theorem seedFinish_dictExp (c : CodeWord) (t : Str) : (seedFinish c t s).dictExp = s.dictExp := rfl
@[simp] theorem seedFinish_start (c : CodeWord) (t : Str) : (seedFinish c t s).start = s.start := rfl
@[simp] theorem seedFinish_srcOk (c : CodeWord) (t : Str) : (seedFinish c t s).srcOk = s.srcOk := rfl
@[simp] theorem seedFinish_phase (c : CodeWord) (t : Str) : (seedFinish c t s).phase = s.phase := rfl
@[simp] theorem seedFinish_faultCode (c : CodeWord) (t : Str) : (seedFinish c t s).faultCode = s.faultCode := rfl
@[simp] theorem seedFinish_outValid (c : CodeWord) (t : Str) : (seedFinish c t s).outValid = s.outValid := rfl
@[simp] theorem seedFinish_faultInfo (c : CodeWord) (t : Str) : (seedFinish c t s).faultInfo = s.faultInfo := rfl
@[simp] theorem seedFinish_inLen (c : CodeWord) (t : Str) : (seedFinish c t s).inLen = s.inLen := rfl
@[simp] theorem seedFinish_nCodes (c : CodeWord) (t : Str) : (seedFinish c t s).nCodes = s.nCodes := rfl
@[simp] theorem seedFinish_outLen (c : CodeWord) (t : Str) : (seedFinish c t s).outLen = s.outLen + t.length := rfl
@[simp] theorem seedFinish_bi (c : CodeWord) (t : Str) : (seedFinish c t s).bi = s.bi := rfl
@[simp] theorem seedFinish_ci (c : CodeWord) (t : Str) : (seedFinish c t s).ci = 1 := rfl
@[simp] theorem seedFinish_prevCode (c : CodeWord) (t : Str) : (seedFinish c t s).prevCode = c.setWidth 12 := rfl
@[simp] theorem seedFinish_dictSize (c : CodeWord) (t : Str) : (seedFinish c t s).dictSize = s.dictSize := rfl
@[simp] theorem seedFinish_maxSize (c : CodeWord) (t : Str) : (seedFinish c t s).maxSize = s.maxSize := rfl
@[simp] theorem seedFinish_inMem (c : CodeWord) (t : Str) : (seedFinish c t s).inMem = s.inMem := rfl
@[simp] theorem seedFinish_codes (c : CodeWord) (t : Str) : (seedFinish c t s).codes = s.codes := rfl
@[simp] theorem seedFinish_dict (c : CodeWord) (t : Str) : (seedFinish c t s).dict = s.dict := rfl
@[simp] theorem seedFinish_outMem (c : CodeWord) (t : Str) : (seedFinish c t s).outMem = memWriteBytes s.outMem s.outLen t := rfl
@[simp] theorem seedFinish_work (c : CodeWord) (t : Str) : (seedFinish c t s).work = s.work.setEntry .emitted t := rfl
@[simp] theorem seedFinish_fsm (c : CodeWord) (t : Str) : (seedFinish c t s).fsm = s.fsm := rfl
@[simp] theorem seedFinish_grow (c : CodeWord) (t : Str) : (seedFinish c t s).grow = s.grow := rfl
@[simp] theorem seedFinish_freeCount (c : CodeWord) (t : Str) : (seedFinish c t s).freeCount = s.freeCount := rfl

/-! ### finishKnown -/

@[simp] theorem finishKnown_dictExp (c : CodeWord) : (finishKnown c s).dictExp = s.dictExp := rfl
@[simp] theorem finishKnown_start (c : CodeWord) : (finishKnown c s).start = s.start := rfl
@[simp] theorem finishKnown_srcOk (c : CodeWord) : (finishKnown c s).srcOk = s.srcOk := rfl
@[simp] theorem finishKnown_phase (c : CodeWord) : (finishKnown c s).phase = s.phase := rfl
@[simp] theorem finishKnown_faultCode (c : CodeWord) : (finishKnown c s).faultCode = s.faultCode := rfl
@[simp] theorem finishKnown_outValid (c : CodeWord) : (finishKnown c s).outValid = s.outValid := rfl
@[simp] theorem finishKnown_faultInfo (c : CodeWord) : (finishKnown c s).faultInfo = s.faultInfo := rfl
@[simp] theorem finishKnown_inLen (c : CodeWord) : (finishKnown c s).inLen = s.inLen := rfl
@[simp] theorem finishKnown_nCodes (c : CodeWord) : (finishKnown c s).nCodes = s.nCodes := rfl
@[simp] theorem finishKnown_outLen (c : CodeWord) : (finishKnown c s).outLen = s.outLen := rfl
@[simp] theorem finishKnown_bi (c : CodeWord) : (finishKnown c s).bi = s.bi := rfl
@[simp] theorem finishKnown_ci (c : CodeWord) : (finishKnown c s).ci = s.ci + 1 := rfl
@[simp] theorem finishKnown_prevCode (c : CodeWord) : (finishKnown c s).prevCode = c.setWidth 12 := rfl
@[simp] theorem finishKnown_dictSize (c : CodeWord) : (finishKnown c s).dictSize = s.dictSize := rfl
@[simp] theorem finishKnown_maxSize (c : CodeWord) : (finishKnown c s).maxSize = s.maxSize := rfl
@[simp] theorem finishKnown_inMem (c : CodeWord) : (finishKnown c s).inMem = s.inMem := rfl
@[simp] theorem finishKnown_codes (c : CodeWord) : (finishKnown c s).codes = s.codes := rfl
@[simp] theorem finishKnown_dict (c : CodeWord) : (finishKnown c s).dict = s.dict := rfl
@[simp] theorem finishKnown_outMem (c : CodeWord) : (finishKnown c s).outMem = s.outMem := rfl
@[simp] theorem finishKnown_work (c : CodeWord) : (finishKnown c s).work = s.work := rfl
@[simp] theorem finishKnown_fsm (c : CodeWord) : (finishKnown c s).fsm = s.fsm := rfl
@[simp] theorem finishKnown_grow (c : CodeWord) : (finishKnown c s).grow = s.grow := rfl
@[simp] theorem finishKnown_freeCount (c : CodeWord) : (finishKnown c s).freeCount = s.freeCount := rfl

/-! ### finishSelfref -/

@[simp] theorem finishSelfref_dictExp : (finishSelfref s).dictExp = s.dictExp := rfl
@[simp] theorem finishSelfref_start : (finishSelfref s).start = s.start := rfl
@[simp] theorem finishSelfref_srcOk : (finishSelfref s).srcOk = s.srcOk := rfl
@[simp] theorem finishSelfref_phase : (finishSelfref s).phase = s.phase := rfl
@[simp] theorem finishSelfref_faultCode : (finishSelfref s).faultCode = s.faultCode := rfl
@[simp] theorem finishSelfref_outValid : (finishSelfref s).outValid = s.outValid := rfl
@[simp] theorem finishSelfref_faultInfo : (finishSelfref s).faultInfo = s.faultInfo := rfl
@[simp] theorem finishSelfref_inLen : (finishSelfref s).inLen = s.inLen := rfl
@[simp] theorem finishSelfref_nCodes : (finishSelfref s).nCodes = s.nCodes := rfl
@[simp] theorem finishSelfref_outLen : (finishSelfref s).outLen = s.outLen := rfl
@[simp] theorem finishSelfref_bi : (finishSelfref s).bi = s.bi := rfl
@[simp] theorem finishSelfref_ci : (finishSelfref s).ci = s.ci + 1 := rfl
@[simp] theorem finishSelfref_prevCode : (finishSelfref s).prevCode = s.work.key.setWidth 12 := rfl
@[simp] theorem finishSelfref_dictSize : (finishSelfref s).dictSize = s.dictSize := rfl
@[simp] theorem finishSelfref_maxSize : (finishSelfref s).maxSize = s.maxSize := rfl
@[simp] theorem finishSelfref_inMem : (finishSelfref s).inMem = s.inMem := rfl
@[simp] theorem finishSelfref_codes : (finishSelfref s).codes = s.codes := rfl
@[simp] theorem finishSelfref_dict : (finishSelfref s).dict = s.dict := rfl
@[simp] theorem finishSelfref_outMem : (finishSelfref s).outMem = s.outMem := rfl
@[simp] theorem finishSelfref_work : (finishSelfref s).work = s.work := rfl
@[simp] theorem finishSelfref_fsm : (finishSelfref s).fsm = s.fsm := rfl
@[simp] theorem finishSelfref_grow : (finishSelfref s).grow = s.grow := rfl
@[simp] theorem finishSelfref_freeCount : (finishSelfref s).freeCount = s.freeCount := rfl

/-! ### latchMax -/

@[simp] theorem latchMax_dictExp (e : BitVec 4) : (latchMax e s).dictExp = s.dictExp := rfl
@[simp] theorem latchMax_start (e : BitVec 4) : (latchMax e s).start = s.start := rfl
@[simp] theorem latchMax_srcOk (e : BitVec 4) : (latchMax e s).srcOk = s.srcOk := rfl
@[simp] theorem latchMax_phase (e : BitVec 4) : (latchMax e s).phase = s.phase := rfl
@[simp] theorem latchMax_faultCode (e : BitVec 4) : (latchMax e s).faultCode = s.faultCode := rfl
@[simp] theorem latchMax_outValid (e : BitVec 4) : (latchMax e s).outValid = s.outValid := rfl
@[simp] theorem latchMax_faultInfo (e : BitVec 4) : (latchMax e s).faultInfo = s.faultInfo := rfl
@[simp] theorem latchMax_inLen (e : BitVec 4) : (latchMax e s).inLen = s.inLen := rfl
@[simp] theorem latchMax_nCodes (e : BitVec 4) : (latchMax e s).nCodes = s.nCodes := rfl
@[simp] theorem latchMax_outLen (e : BitVec 4) : (latchMax e s).outLen = s.outLen := rfl
@[simp] theorem latchMax_bi (e : BitVec 4) : (latchMax e s).bi = s.bi := rfl
@[simp] theorem latchMax_ci (e : BitVec 4) : (latchMax e s).ci = s.ci := rfl
@[simp] theorem latchMax_prevCode (e : BitVec 4) : (latchMax e s).prevCode = s.prevCode := rfl
@[simp] theorem latchMax_dictSize (e : BitVec 4) : (latchMax e s).dictSize = s.dictSize := rfl
@[simp] theorem latchMax_maxSize (e : BitVec 4) : (latchMax e s).maxSize = 1#13 <<< e.toNat := rfl
@[simp] theorem latchMax_inMem (e : BitVec 4) : (latchMax e s).inMem = s.inMem := rfl
@[simp] theorem latchMax_codes (e : BitVec 4) : (latchMax e s).codes = s.codes := rfl
@[simp] theorem latchMax_dict (e : BitVec 4) : (latchMax e s).dict = s.dict := rfl
@[simp] theorem latchMax_outMem (e : BitVec 4) : (latchMax e s).outMem = s.outMem := rfl
@[simp] theorem latchMax_work (e : BitVec 4) : (latchMax e s).work = s.work := rfl
@[simp] theorem latchMax_fsm (e : BitVec 4) : (latchMax e s).fsm = s.fsm := rfl
@[simp] theorem latchMax_grow (e : BitVec 4) : (latchMax e s).grow = s.grow := rfl
@[simp] theorem latchMax_freeCount (e : BitVec 4) : (latchMax e s).freeCount = s.freeCount := rfl

/-! ### consumeStart -/

@[simp] theorem consumeStart_dictExp : (consumeStart s).dictExp = s.dictExp := rfl
@[simp] theorem consumeStart_start : (consumeStart s).start = false := rfl
@[simp] theorem consumeStart_srcOk : (consumeStart s).srcOk = s.srcOk := rfl
@[simp] theorem consumeStart_phase : (consumeStart s).phase = s.phase := rfl
@[simp] theorem consumeStart_faultCode : (consumeStart s).faultCode = s.faultCode := rfl
@[simp] theorem consumeStart_outValid : (consumeStart s).outValid = s.outValid := rfl
@[simp] theorem consumeStart_faultInfo : (consumeStart s).faultInfo = s.faultInfo := rfl
@[simp] theorem consumeStart_inLen : (consumeStart s).inLen = s.inLen := rfl
@[simp] theorem consumeStart_nCodes : (consumeStart s).nCodes = s.nCodes := rfl
@[simp] theorem consumeStart_outLen : (consumeStart s).outLen = s.outLen := rfl
@[simp] theorem consumeStart_bi : (consumeStart s).bi = s.bi := rfl
@[simp] theorem consumeStart_ci : (consumeStart s).ci = s.ci := rfl
@[simp] theorem consumeStart_prevCode : (consumeStart s).prevCode = s.prevCode := rfl
@[simp] theorem consumeStart_dictSize : (consumeStart s).dictSize = s.dictSize := rfl
@[simp] theorem consumeStart_maxSize : (consumeStart s).maxSize = s.maxSize := rfl
@[simp] theorem consumeStart_inMem : (consumeStart s).inMem = s.inMem := rfl
@[simp] theorem consumeStart_codes : (consumeStart s).codes = s.codes := rfl
@[simp] theorem consumeStart_dict : (consumeStart s).dict = s.dict := rfl
@[simp] theorem consumeStart_outMem : (consumeStart s).outMem = s.outMem := rfl
@[simp] theorem consumeStart_work : (consumeStart s).work = s.work := rfl
@[simp] theorem consumeStart_fsm : (consumeStart s).fsm = s.fsm := rfl
@[simp] theorem consumeStart_grow : (consumeStart s).grow = s.grow := rfl
@[simp] theorem consumeStart_freeCount : (consumeStart s).freeCount = s.freeCount := rfl

/-! ### enter -/

@[simp] theorem enter_dictExp (f : Fsm) : (enter f s).dictExp = s.dictExp := rfl
@[simp] theorem enter_start (f : Fsm) : (enter f s).start = s.start := rfl
@[simp] theorem enter_srcOk (f : Fsm) : (enter f s).srcOk = s.srcOk := rfl
@[simp] theorem enter_phase (f : Fsm) : (enter f s).phase = f.phaseFrom s.phase := rfl
@[simp] theorem enter_faultCode (f : Fsm) : (enter f s).faultCode = s.faultCode := rfl
@[simp] theorem enter_outValid (f : Fsm) : (enter f s).outValid = s.outValid := rfl
@[simp] theorem enter_faultInfo (f : Fsm) : (enter f s).faultInfo = s.faultInfo := rfl
@[simp] theorem enter_inLen (f : Fsm) : (enter f s).inLen = s.inLen := rfl
@[simp] theorem enter_nCodes (f : Fsm) : (enter f s).nCodes = s.nCodes := rfl
@[simp] theorem enter_outLen (f : Fsm) : (enter f s).outLen = s.outLen := rfl
@[simp] theorem enter_bi (f : Fsm) : (enter f s).bi = s.bi := rfl
@[simp] theorem enter_ci (f : Fsm) : (enter f s).ci = s.ci := rfl
@[simp] theorem enter_prevCode (f : Fsm) : (enter f s).prevCode = s.prevCode := rfl
@[simp] theorem enter_dictSize (f : Fsm) : (enter f s).dictSize = s.dictSize := rfl
@[simp] theorem enter_maxSize (f : Fsm) : (enter f s).maxSize = s.maxSize := rfl
@[simp] theorem enter_inMem (f : Fsm) : (enter f s).inMem = s.inMem := rfl
@[simp] theorem enter_codes (f : Fsm) : (enter f s).codes = s.codes := rfl
@[simp] theorem enter_dict (f : Fsm) : (enter f s).dict = s.dict := rfl
@[simp] theorem enter_outMem (f : Fsm) : (enter f s).outMem = s.outMem := rfl
@[simp] theorem enter_work (f : Fsm) : (enter f s).work = s.work := rfl
@[simp] theorem enter_fsm (f : Fsm) : (enter f s).fsm = f := rfl
@[simp] theorem enter_grow (f : Fsm) : (enter f s).grow = s.grow := rfl
@[simp] theorem enter_freeCount (f : Fsm) : (enter f s).freeCount = s.freeCount := rfl

/-! ### storePair -/

@[simp] theorem storePair_dictExp (w : CodeWord) : (storePair w s).dictExp = s.dictExp := rfl
@[simp] theorem storePair_start (w : CodeWord) : (storePair w s).start = s.start := rfl
@[simp] theorem storePair_srcOk (w : CodeWord) : (storePair w s).srcOk = s.srcOk := rfl
@[simp] theorem storePair_phase (w : CodeWord) : (storePair w s).phase = s.phase := rfl
@[simp] theorem storePair_faultCode (w : CodeWord) : (storePair w s).faultCode = s.faultCode := rfl
@[simp] theorem storePair_outValid (w : CodeWord) : (storePair w s).outValid = s.outValid := rfl
@[simp] theorem storePair_faultInfo (w : CodeWord) : (storePair w s).faultInfo = s.faultInfo := rfl
@[simp] theorem storePair_inLen (w : CodeWord) : (storePair w s).inLen = s.inLen := rfl
@[simp] theorem storePair_nCodes (w : CodeWord) : (storePair w s).nCodes = 1 := rfl
@[simp] theorem storePair_outLen (w : CodeWord) : (storePair w s).outLen = s.outLen := rfl
@[simp] theorem storePair_bi (w : CodeWord) : (storePair w s).bi = s.bi := rfl
@[simp] theorem storePair_ci (w : CodeWord) : (storePair w s).ci = s.ci := rfl
@[simp] theorem storePair_prevCode (w : CodeWord) : (storePair w s).prevCode = s.prevCode := rfl
@[simp] theorem storePair_dictSize (w : CodeWord) : (storePair w s).dictSize = s.dictSize := rfl
@[simp] theorem storePair_maxSize (w : CodeWord) : (storePair w s).maxSize = s.maxSize := rfl
@[simp] theorem storePair_inMem (w : CodeWord) : (storePair w s).inMem = s.inMem := rfl
@[simp] theorem storePair_codes (w : CodeWord) : (storePair w s).codes = cellsPut s.codes 0 w := rfl
@[simp] theorem storePair_dict (w : CodeWord) : (storePair w s).dict = s.dict := rfl
@[simp] theorem storePair_outMem (w : CodeWord) : (storePair w s).outMem = s.outMem := rfl
@[simp] theorem storePair_work (w : CodeWord) : (storePair w s).work = { s.work with w16 := w } := rfl
@[simp] theorem storePair_fsm (w : CodeWord) : (storePair w s).fsm = s.fsm := rfl
@[simp] theorem storePair_grow (w : CodeWord) : (storePair w s).grow = s.grow := rfl
@[simp] theorem storePair_freeCount (w : CodeWord) : (storePair w s).freeCount = s.freeCount := rfl

/-! ### storeTriple -/

@[simp] theorem storeTriple_dictExp (a b : Code) : (storeTriple a b s).dictExp = s.dictExp := rfl
@[simp] theorem storeTriple_start (a b : Code) : (storeTriple a b s).start = s.start := rfl
@[simp] theorem storeTriple_srcOk (a b : Code) : (storeTriple a b s).srcOk = s.srcOk := rfl
@[simp] theorem storeTriple_phase (a b : Code) : (storeTriple a b s).phase = s.phase := rfl
@[simp] theorem storeTriple_faultCode (a b : Code) : (storeTriple a b s).faultCode = s.faultCode := rfl
@[simp] theorem storeTriple_outValid (a b : Code) : (storeTriple a b s).outValid = s.outValid := rfl
@[simp] theorem storeTriple_faultInfo (a b : Code) : (storeTriple a b s).faultInfo = s.faultInfo := rfl
@[simp] theorem storeTriple_inLen (a b : Code) : (storeTriple a b s).inLen = s.inLen := rfl
@[simp] theorem storeTriple_nCodes (a b : Code) : (storeTriple a b s).nCodes = s.nCodes + 2 := rfl
@[simp] theorem storeTriple_outLen (a b : Code) : (storeTriple a b s).outLen = s.outLen := rfl
@[simp] theorem storeTriple_bi (a b : Code) : (storeTriple a b s).bi = s.bi + 3 := rfl
@[simp] theorem storeTriple_ci (a b : Code) : (storeTriple a b s).ci = s.ci := rfl
@[simp] theorem storeTriple_prevCode (a b : Code) : (storeTriple a b s).prevCode = s.prevCode := rfl
@[simp] theorem storeTriple_dictSize (a b : Code) : (storeTriple a b s).dictSize = s.dictSize := rfl
@[simp] theorem storeTriple_maxSize (a b : Code) : (storeTriple a b s).maxSize = s.maxSize := rfl
@[simp] theorem storeTriple_inMem (a b : Code) : (storeTriple a b s).inMem = s.inMem := rfl
@[simp] theorem storeTriple_codes (a b : Code) : (storeTriple a b s).codes =
    cellsPut (cellsPut s.codes s.nCodes (zext16 a)) (s.nCodes + 1) (zext16 b) := rfl
@[simp] theorem storeTriple_dict (a b : Code) : (storeTriple a b s).dict = s.dict := rfl
@[simp] theorem storeTriple_outMem (a b : Code) : (storeTriple a b s).outMem = s.outMem := rfl
@[simp] theorem storeTriple_work (a b : Code) : (storeTriple a b s).work = tripleWork a b s.work := rfl
@[simp] theorem storeTriple_fsm (a b : Code) : (storeTriple a b s).fsm = s.fsm := rfl
@[simp] theorem storeTriple_grow (a b : Code) : (storeTriple a b s).grow = s.grow := rfl
@[simp] theorem storeTriple_freeCount (a b : Code) : (storeTriple a b s).freeCount = s.freeCount := rfl

/-! ### storeTail -/

@[simp] theorem storeTail_dictExp (i : Nat) (w : CodeWord) : (storeTail i w s).dictExp = s.dictExp := rfl
@[simp] theorem storeTail_start (i : Nat) (w : CodeWord) : (storeTail i w s).start = s.start := rfl
@[simp] theorem storeTail_srcOk (i : Nat) (w : CodeWord) : (storeTail i w s).srcOk = s.srcOk := rfl
@[simp] theorem storeTail_phase (i : Nat) (w : CodeWord) : (storeTail i w s).phase = s.phase := rfl
@[simp] theorem storeTail_faultCode (i : Nat) (w : CodeWord) : (storeTail i w s).faultCode = s.faultCode := rfl
@[simp] theorem storeTail_outValid (i : Nat) (w : CodeWord) : (storeTail i w s).outValid = s.outValid := rfl
@[simp] theorem storeTail_faultInfo (i : Nat) (w : CodeWord) : (storeTail i w s).faultInfo = s.faultInfo := rfl
@[simp] theorem storeTail_inLen (i : Nat) (w : CodeWord) : (storeTail i w s).inLen = s.inLen := rfl
@[simp] theorem storeTail_nCodes (i : Nat) (w : CodeWord) : (storeTail i w s).nCodes = s.nCodes := rfl
@[simp] theorem storeTail_outLen (i : Nat) (w : CodeWord) : (storeTail i w s).outLen = s.outLen := rfl
@[simp] theorem storeTail_bi (i : Nat) (w : CodeWord) : (storeTail i w s).bi = s.bi := rfl
@[simp] theorem storeTail_ci (i : Nat) (w : CodeWord) : (storeTail i w s).ci = s.ci := rfl
@[simp] theorem storeTail_prevCode (i : Nat) (w : CodeWord) : (storeTail i w s).prevCode = s.prevCode := rfl
@[simp] theorem storeTail_dictSize (i : Nat) (w : CodeWord) : (storeTail i w s).dictSize = s.dictSize := rfl
@[simp] theorem storeTail_maxSize (i : Nat) (w : CodeWord) : (storeTail i w s).maxSize = s.maxSize := rfl
@[simp] theorem storeTail_inMem (i : Nat) (w : CodeWord) : (storeTail i w s).inMem = s.inMem := rfl
@[simp] theorem storeTail_codes (i : Nat) (w : CodeWord) : (storeTail i w s).codes = cellsPut s.codes i w := rfl
@[simp] theorem storeTail_dict (i : Nat) (w : CodeWord) : (storeTail i w s).dict = s.dict := rfl
@[simp] theorem storeTail_outMem (i : Nat) (w : CodeWord) : (storeTail i w s).outMem = s.outMem := rfl
@[simp] theorem storeTail_work (i : Nat) (w : CodeWord) : (storeTail i w s).work = { s.work with w16 := w } := rfl
@[simp] theorem storeTail_fsm (i : Nat) (w : CodeWord) : (storeTail i w s).fsm = s.fsm := rfl
@[simp] theorem storeTail_grow (i : Nat) (w : CodeWord) : (storeTail i w s).grow = s.grow := rfl
@[simp] theorem storeTail_freeCount (i : Nat) (w : CodeWord) : (storeTail i w s).freeCount = s.freeCount := rfl

/-! ### afterOp, which writes `fsm`, `phase`, `ci` and `grow` -/

@[simp] theorem afterOp_dictExp (f : Fsm) : (afterOp f s).dictExp = s.dictExp := by unfold afterOp; split <;> rfl
@[simp] theorem afterOp_start (f : Fsm) : (afterOp f s).start = s.start := by unfold afterOp; split <;> rfl
@[simp] theorem afterOp_srcOk (f : Fsm) : (afterOp f s).srcOk = s.srcOk := by unfold afterOp; split <;> rfl
@[simp] theorem afterOp_faultCode (f : Fsm) : (afterOp f s).faultCode = s.faultCode := by unfold afterOp; split <;> rfl
@[simp] theorem afterOp_outValid (f : Fsm) : (afterOp f s).outValid = s.outValid := by unfold afterOp; split <;> rfl
@[simp] theorem afterOp_faultInfo (f : Fsm) : (afterOp f s).faultInfo = s.faultInfo := by unfold afterOp; split <;> rfl
@[simp] theorem afterOp_inLen (f : Fsm) : (afterOp f s).inLen = s.inLen := by unfold afterOp; split <;> rfl
@[simp] theorem afterOp_nCodes (f : Fsm) : (afterOp f s).nCodes = s.nCodes := by unfold afterOp; split <;> rfl
@[simp] theorem afterOp_outLen (f : Fsm) : (afterOp f s).outLen = s.outLen := by unfold afterOp; split <;> rfl
@[simp] theorem afterOp_bi (f : Fsm) : (afterOp f s).bi = s.bi := by unfold afterOp; split <;> rfl
@[simp] theorem afterOp_prevCode (f : Fsm) : (afterOp f s).prevCode = s.prevCode := by unfold afterOp; split <;> rfl
@[simp] theorem afterOp_dictSize (f : Fsm) : (afterOp f s).dictSize = s.dictSize := by unfold afterOp; split <;> rfl
@[simp] theorem afterOp_maxSize (f : Fsm) : (afterOp f s).maxSize = s.maxSize := by unfold afterOp; split <;> rfl
@[simp] theorem afterOp_inMem (f : Fsm) : (afterOp f s).inMem = s.inMem := by unfold afterOp; split <;> rfl
@[simp] theorem afterOp_codes (f : Fsm) : (afterOp f s).codes = s.codes := by unfold afterOp; split <;> rfl
@[simp] theorem afterOp_dict (f : Fsm) : (afterOp f s).dict = s.dict := by unfold afterOp; split <;> rfl
@[simp] theorem afterOp_outMem (f : Fsm) : (afterOp f s).outMem = s.outMem := by unfold afterOp; split <;> rfl
@[simp] theorem afterOp_work (f : Fsm) : (afterOp f s).work = s.work := by unfold afterOp; split <;> rfl
@[simp] theorem afterOp_freeCount (f : Fsm) : (afterOp f s).freeCount = s.freeCount := by unfold afterOp; split <;> rfl

/-! ### The registers a lookup returns to -/

@[simp] theorem Work.setEntry_c (d : EntryReg) (t : Str) (w : Work) : (w.setEntry d t).c = w.c := by
  cases d <;> rfl
@[simp] theorem Work.setEntry_prevEntry (t : Str) (w : Work) : (w.setEntry .prevEntry t).prevEntry = t := rfl
@[simp] theorem Work.setEntry_currEntry (t : Str) (w : Work) : (w.setEntry .currEntry t).currEntry = t := rfl
@[simp] theorem Work.setEntry_newEntry (d : EntryReg) (t : Str) (w : Work) : (w.setEntry d t).newEntry = w.newEntry := by
  cases d <;> rfl
@[simp] theorem Work.setEntry_emitted (t : Str) (w : Work) : (w.setEntry .emitted t).emitted = t := rfl
@[simp] theorem Work.setEntry_key (d : EntryReg) (t : Str) (w : Work) : (w.setEntry d t).key = w.key := by
  cases d <;> rfl
@[simp] theorem Work.setEntry_b0 (d : EntryReg) (t : Str) (w : Work) : (w.setEntry d t).b0 = w.b0 := by
  cases d <;> rfl
@[simp] theorem Work.setEntry_b1 (d : EntryReg) (t : Str) (w : Work) : (w.setEntry d t).b1 = w.b1 := by
  cases d <;> rfl
@[simp] theorem Work.setEntry_b2 (d : EntryReg) (t : Str) (w : Work) : (w.setEntry d t).b2 = w.b2 := by
  cases d <;> rfl
@[simp] theorem Work.setEntry_codeA (d : EntryReg) (t : Str) (w : Work) : (w.setEntry d t).codeA = w.codeA := by
  cases d <;> rfl
@[simp] theorem Work.setEntry_codeB (d : EntryReg) (t : Str) (w : Work) : (w.setEntry d t).codeB = w.codeB := by
  cases d <;> rfl
@[simp] theorem Work.setEntry_w16 (d : EntryReg) (t : Str) (w : Work) : (w.setEntry d t).w16 = w.w16 := by
  cases d <;> rfl

end Sys2Proof.Machine
end

