-- ==== Sys2Proof/Laws/Cells.lean ====
section
/-! SUPPORT. Cells: a read after a write, and the canonical form every write keeps. -/

namespace Sys2Proof.Machine

section Cells

variable {α : Type}

@[simp] theorem cellsRead_nil (a : Nat) : cellsRead ([] : List (Nat × α)) a = none := rfl

theorem cellsRead_put (m : List (Nat × α)) (a b : Nat) (v : α) :
    cellsRead (cellsPut m a v) b = if a = b then some v else cellsRead m b := by
  induction m with
  | nil => rfl
  | cons e rest ih =>
    obtain ⟨k, x⟩ := e
    by_cases h1 : a < k
    · simp [cellsPut, h1, cellsRead]
    · by_cases h2 : a = k
      · subst h2
        by_cases h3 : a = b <;> simp [cellsPut, cellsRead, h3]
      · by_cases h3 : k = b
        · subst h3; simp [cellsPut, h1, h2, cellsRead]
        · simp [cellsPut, h1, h2, cellsRead, ih, h3]

@[simp] theorem cellsRead_put_same (m : List (Nat × α)) (a : Nat) (v : α) : cellsRead (cellsPut m a v) a = some v := by
  simp [cellsRead_put]

theorem cellsRead_put_other (m : List (Nat × α)) {a b : Nat} (v : α) (h : a ≠ b) :
    cellsRead (cellsPut m a v) b = cellsRead m b := by
  simp [cellsRead_put, h]

theorem cellsRead_drop (m : List (Nat × α)) (a b : Nat) :
    cellsRead (cellsDrop m a) b = if a = b then none else cellsRead m b := by
  induction m with
  | nil => simp [cellsDrop]
  | cons e rest ih =>
    obtain ⟨k, x⟩ := e
    by_cases h1 : k = a
    · subst h1
      rw [cellsDrop, if_pos rfl, ih]
      by_cases h2 : k = b <;> simp [h2, cellsRead]
    · by_cases h2 : k = b
      · subst h2
        have h3 : ¬ a = k := fun h => h1 h.symm
        simp [cellsDrop, h1, cellsRead, h3]
      · simp [cellsDrop, h1, cellsRead, ih, h2]

theorem cellsAbove_mono {lo lo' : Nat} (h : lo' ≤ lo) (m : List (Nat × α)) (hm : cellsAbove lo m = true) :
    cellsAbove lo' m = true := by
  cases m with
  | nil => rfl
  | cons e rest =>
    simp only [cellsAbove, Bool.and_eq_true, decide_eq_true_eq] at hm ⊢
    exact ⟨by omega, hm.2⟩

theorem cellsAbove_put {lo a : Nat} (v : α) (ha : lo < a) (m : List (Nat × α)) (hm : cellsAbove lo m = true) :
    cellsAbove lo (cellsPut m a v) = true := by
  induction m generalizing lo with
  | nil => simp [cellsPut, cellsAbove, ha]
  | cons e rest ih =>
    obtain ⟨k, x⟩ := e
    simp only [cellsAbove, Bool.and_eq_true, decide_eq_true_eq] at hm
    by_cases h1 : a < k
    · simp [cellsPut, h1, cellsAbove, ha, hm.2]
    · by_cases h2 : a = k
      · subst h2; simp [cellsPut, cellsAbove, ha, hm.2]
      · simp [cellsPut, h1, h2, cellsAbove, hm.1, ih (lo := k) (by omega) hm.2]

theorem cellsRising_put (m : List (Nat × α)) (a : Nat) (v : α) (hm : cellsRising m = true) :
    cellsRising (cellsPut m a v) = true := by
  cases m with
  | nil => simp [cellsPut, cellsRising, cellsAbove]
  | cons e rest =>
    obtain ⟨k, x⟩ := e
    simp only [cellsRising] at hm
    by_cases h1 : a < k
    · simp [cellsPut, h1, cellsRising, cellsAbove, hm]
    · by_cases h2 : a = k
      · subst h2; simp [cellsPut, cellsRising, hm]
      · simp [cellsPut, h1, h2, cellsRising, cellsAbove_put v (show k < a by omega) rest hm]

theorem cellsAbove_drop (lo a : Nat) (m : List (Nat × α)) (hm : cellsAbove lo m = true) :
    cellsAbove lo (cellsDrop m a) = true := by
  induction m generalizing lo with
  | nil => rfl
  | cons e rest ih =>
    obtain ⟨k, x⟩ := e
    simp only [cellsAbove, Bool.and_eq_true, decide_eq_true_eq] at hm
    by_cases h1 : k = a
    · simpa [cellsDrop, h1] using cellsAbove_mono hm.1.le _ (h1 ▸ ih k hm.2)
    · simp [cellsDrop, h1, cellsAbove, hm.1, ih k hm.2]

theorem cellsRising_drop (a : Nat) (m : List (Nat × α)) (hm : cellsRising m = true) :
    cellsRising (cellsDrop m a) = true := by
  induction m with
  | nil => rfl
  | cons e rest ih =>
    obtain ⟨k, x⟩ := e
    simp only [cellsRising] at hm
    by_cases h1 : k = a
    · have hr : cellsRising rest = true := by
        cases rest with
        | nil => rfl
        | cons e' rest' =>
          simp only [cellsAbove, Bool.and_eq_true] at hm
          exact hm.2
      simpa [cellsDrop, h1] using h1 ▸ ih hr
    · simp [cellsDrop, h1, cellsRising, cellsAbove_drop k a rest hm]

theorem cellsPut_all (p : Nat × α → Bool) (m : List (Nat × α)) (a : Nat) (v : α) (hm : m.all p = true)
    (hp : p (a, v) = true) : (cellsPut m a v).all p = true := by
  induction m with
  | nil => simp [cellsPut, hp]
  | cons e rest ih =>
    obtain ⟨k, x⟩ := e
    simp only [List.all_cons, Bool.and_eq_true] at hm
    by_cases h1 : a < k
    · simp only [cellsPut, h1, ↓reduceIte, List.all_cons, hp, hm, Bool.and_self]
    · by_cases h2 : a = k
      · subst h2; simp only [cellsPut, lt_irrefl, ↓reduceIte, List.all_cons, hp, hm.2, Bool.and_self]
      · simp only [cellsPut, h1, h2, ↓reduceIte, List.all_cons, hm.1, ih hm.2, Bool.and_self]

theorem cellsDrop_all (p : Nat × α → Bool) (m : List (Nat × α)) (a : Nat) (hm : m.all p = true) :
    (cellsDrop m a).all p = true := by
  induction m with
  | nil => rfl
  | cons e rest ih =>
    obtain ⟨k, x⟩ := e
    simp only [List.all_cons, Bool.and_eq_true] at hm
    by_cases h1 : k = a
    · simp only [cellsDrop, h1, ↓reduceIte, ih hm.2]
    · simp only [cellsDrop, h1, ↓reduceIte, List.all_cons, hm.1, ih hm.2, Bool.and_self]

end Cells

/-! ### Byte spaces -/

theorem Memory.wf_put (m : Memory) (a : Nat) (b : Byte) (hm : Memory.wf m = true) : Memory.wf (cellsPut m a b) = true :=
  cellsRising_put m a b hm

theorem CodeCells.wf_put (m : CodeCells) (a : Nat) (c : CodeWord) (hm : CodeCells.wf m = true) :
    CodeCells.wf (cellsPut m a c) = true :=
  cellsRising_put m a c hm

theorem Memory.wf_writeBytes (bs : List Byte) (m : Memory) (a : Nat) (hm : Memory.wf m = true) :
    Memory.wf (memWriteBytes m a bs) = true := by
  induction bs generalizing m a with
  | nil => exact hm
  | cons b bs ih => exact ih _ _ (Memory.wf_put m a b hm)

theorem memWriteBytes_below (bs : List Byte) (m : Memory) (a b : Nat) (h : b < a) :
    cellsRead (memWriteBytes m a bs) b = cellsRead m b := by
  induction bs generalizing m a with
  | nil => rfl
  | cons x bs ih =>
    rw [memWriteBytes, ih _ _ (by omega), cellsRead_put_other _ _ (by omega)]

theorem memWriteBytes_above (bs : List Byte) (m : Memory) (a b : Nat) (h : a + bs.length ≤ b) :
    cellsRead (memWriteBytes m a bs) b = cellsRead m b := by
  induction bs generalizing m a with
  | nil => rfl
  | cons x bs ih =>
    simp only [List.length_cons] at h
    rw [memWriteBytes, ih _ _ (by omega), cellsRead_put_other _ _ (by omega)]

theorem memWriteBytes_inside (bs : List Byte) (m : Memory) (a i : Nat) :
    i < bs.length → cellsRead (memWriteBytes m a bs) (a + i) = bs[i]? := by
  induction bs generalizing m a i with
  | nil => simp
  | cons x bs ih =>
    intro h
    cases i with
    | zero => simp [memWriteBytes, memWriteBytes_below]
    | succ i =>
      have := ih (cellsPut m a x) (a + 1) i (by simpa using h)
      simpa [memWriteBytes, Nat.add_comm 1 i, Nat.add_assoc] using this

theorem memReadBytes_eq_some (m : Memory) (n a : Nat) (bs : List Byte) :
    memReadBytes m a n = some bs ↔ bs.length = n ∧ ∀ i, i < n → cellsRead m (a + i) = bs[i]? := by
  induction n generalizing a bs with
  | zero => cases bs <;> simp [memReadBytes]
  | succ n ih =>
    constructor
    · intro h
      simp only [memReadBytes] at h
      split at h
      · next b bs' hb hbs =>
        obtain rfl : b :: bs' = bs := by simpa using h
        obtain ⟨hl, hr⟩ := (ih _ _).1 hbs
        refine ⟨by simp [hl], fun i hi => ?_⟩
        cases i with
        | zero => simpa using hb
        | succ i =>
          have := hr i (by omega)
          simpa [Nat.add_comm 1 i, Nat.add_assoc] using this
      · simp at h
    · rintro ⟨hl, hr⟩
      cases bs with
      | nil => simp at hl
      | cons b bs =>
        have h0 : cellsRead m a = some b := by simpa using hr 0 (by omega)
        have hrest : memReadBytes m (a + 1) n = some bs := by
          refine (ih _ _).2 ⟨by simpa using hl, fun i hi => ?_⟩
          have := hr (i + 1) (by omega)
          simpa [Nat.add_comm 1 i, Nat.add_assoc] using this
        simp [memReadBytes, h0, hrest]

/-- Appending writes what is appended after what was there. -/
theorem memReadBytes_append (m : Memory) (n : Nat) (bs t : List Byte) (h : memReadBytes m 0 n = some bs) :
    memReadBytes (memWriteBytes m n t) 0 (n + t.length) = some (bs ++ t) := by
  obtain ⟨hl, hr⟩ := (memReadBytes_eq_some _ _ _ _).1 h
  refine (memReadBytes_eq_some _ _ _ _).2 ⟨by simp [hl], fun i hi => ?_⟩
  rcases Nat.lt_or_ge i n with hin | hin
  · rw [memWriteBytes_below _ _ _ _ (by omega), hr i hin, List.getElem?_append_left (by omega)]
  · obtain ⟨j, rfl⟩ := Nat.exists_eq_add_of_le hin
    rw [Nat.zero_add, memWriteBytes_inside t m n j (by omega), List.getElem?_append_right (by omega)]
    congr 1
    omega

/-! ### The dictionary -/

/-- What was written from address 0 up is read back. -/
theorem memReadBytes_write (m : Memory) (bs : List Byte) : memReadBytes (memWriteBytes m 0 bs) 0 bs.length = some bs := by
  simpa using memReadBytes_append m 0 [] bs rfl

theorem dictRead_write (d : DictCells) (k j : Nat) (t : Str) :
    dictRead (dictWrite d k t) j = if k = j then some t else dictRead d j := by
  unfold dictRead dictWrite
  by_cases h : dictUnlisted k = some t
  · rw [if_pos h, cellsRead_drop]
    by_cases hk : k = j
    · subst hk; simp [h]
    · simp [hk]
  · rw [if_neg h, cellsRead_put]
    by_cases hk : k = j <;> simp [hk]

@[simp] theorem dictRead_write_same (d : DictCells) (k : Nat) (t : Str) : dictRead (dictWrite d k t) k = some t := by
  simp [dictRead_write]

theorem dictRead_write_other (d : DictCells) {k j : Nat} (t : Str) (h : k ≠ j) :
    dictRead (dictWrite d k t) j = dictRead d j := by
  simp [dictRead_write, h]

theorem DictCells.wf_write (d : DictCells) (k : Nat) (t : Str) (hd : DictCells.wf d = true) :
    DictCells.wf (dictWrite d k t) = true := by
  simp only [DictCells.wf, dictMinimal, Bool.and_eq_true] at hd ⊢
  unfold dictWrite
  by_cases h : dictUnlisted k = some t
  · rw [if_pos h]
    exact ⟨cellsRising_drop k d hd.1, cellsDrop_all _ d k hd.2⟩
  · rw [if_neg h]
    exact ⟨cellsRising_put d k t hd.1, cellsPut_all _ d k t hd.2 (by simpa using h)⟩

/-- R100 slot by slot: below `n` the snapshot, above it what was there. -/
theorem dictRead_copySnap (n : Nat) (d : DictCells) (k : Nat) :
    dictRead (copySnap n d) k = if k < n then some (snap k) else dictRead d k := by
  induction n with
  | zero => simp [copySnap]
  | succ n ih =>
    rw [copySnap, dictRead_write, ih]
    rcases Nat.lt_trichotomy k n with h | h | h
    · simp [show ¬ n = k by omega, show k < n by omega, show k < n + 1 by omega]
    · subst h; simp
    · simp [show ¬ n = k by omega, show ¬ k < n by omega, show ¬ k < n + 1 by omega]

theorem DictCells.wf_copySnap (n : Nat) (d : DictCells) (hd : DictCells.wf d = true) :
    DictCells.wf (copySnap n d) = true := by
  induction n with
  | zero => exact hd
  | succ n ih => exact DictCells.wf_write _ _ _ ih

theorem reset_canonical : Memory.wf State.reset.inMem = true ∧ CodeCells.wf State.reset.codes = true ∧
    DictCells.wf State.reset.dict = true ∧ Memory.wf State.reset.outMem = true := by decide

end Sys2Proof.Machine
end

