-- ==== Sys2Proof/Laws/Fields.lean ====
section
/-! SUPPORT. The fields of the formats as numbers (R65, R72), and that packing and unpacking undo each other. -/

namespace Sys2Proof

theorem and_fifteen (n : Nat) : n &&& 15 = n % 16 := Nat.and_two_pow_sub_one_eq_mod n 4

/-- "the two operands of `|` have no common set bit, so `|` equals `+`" (R9). -/
theorem shift_or_eq_add {a b k : Nat} (h : b < 2 ^ k) : a <<< k ||| b = a * 2 ^ k + b := by
  rw [← Nat.shiftLeft_add_eq_or_of_lt h, Nat.shiftLeft_eq]

theorem codeA_toNat (b0 b1 : Byte) : (codeA b0 b1).toNat = b0.toNat * 16 + b1.toNat / 16 := by
  have h : (codeA b0 b1).toNat = b0.toNat <<< 4 ||| b1.toNat / 16 := by
    simp only [codeA, BitVec.toNat_or, BitVec.toNat_shiftLeft, BitVec.toNat_setWidth, BitVec.toNat_ushiftRight]
    rw [Nat.mod_eq_of_lt (a := b0.toNat) (by omega), Nat.mod_eq_of_lt (a := b1.toNat) (by omega),
      Nat.mod_eq_of_lt (by rw [Nat.shiftLeft_eq]; omega), Nat.shiftRight_eq_div_pow]
  rw [h, shift_or_eq_add (by omega)]; norm_num

theorem codeB_toNat (b1 b2 : Byte) : (codeB b1 b2).toNat = b1.toNat % 16 * 256 + b2.toNat := by
  have h : (codeB b1 b2).toNat = (b1.toNat % 16) <<< 8 ||| b2.toNat := by
    simp only [codeB, BitVec.toNat_or, BitVec.toNat_shiftLeft, BitVec.toNat_setWidth, BitVec.toNat_and]
    rw [show (15#8).toNat = 15 from rfl, and_fifteen, Nat.mod_eq_of_lt (a := b1.toNat % 16) (by omega),
      Nat.mod_eq_of_lt (a := b2.toNat) (by omega), Nat.mod_eq_of_lt (by rw [Nat.shiftLeft_eq]; omega)]
  rw [h, shift_or_eq_add (by omega)]; norm_num

theorem wide_toNat (hi lo : Byte) : (wide hi lo).toNat = hi.toNat * 256 + lo.toNat := by
  have h : (wide hi lo).toNat = hi.toNat <<< 8 ||| lo.toNat := by
    simp only [wide, BitVec.toNat_or, BitVec.toNat_shiftLeft, BitVec.toNat_setWidth]
    rw [Nat.mod_eq_of_lt (a := hi.toNat) (by omega), Nat.mod_eq_of_lt (a := lo.toNat) (by omega),
      Nat.mod_eq_of_lt (by rw [Nat.shiftLeft_eq]; omega)]
  rw [h, shift_or_eq_add (by omega)]; norm_num

theorem packHigh_toNat (a : Code) : (packHigh a).toNat = a.toNat / 16 := by
  simp only [packHigh, BitVec.toNat_setWidth, BitVec.toNat_ushiftRight, Nat.shiftRight_eq_div_pow]
  omega

theorem packMid_toNat (a b : Code) : (packMid a b).toNat = a.toNat % 16 * 16 + b.toNat / 256 := by
  have h : (packMid a b).toNat = (a.toNat % 16) <<< 4 ||| b.toNat / 256 := by
    simp only [packMid, BitVec.toNat_or, BitVec.toNat_shiftLeft, BitVec.toNat_setWidth, BitVec.toNat_and,
      BitVec.toNat_ushiftRight]
    rw [show (15#12).toNat = 15 from rfl, and_fifteen, Nat.shiftRight_eq_div_pow,
      Nat.mod_eq_of_lt (a := a.toNat % 16) (by omega), Nat.mod_eq_of_lt (a := b.toNat / 2 ^ 8) (by omega),
      Nat.mod_eq_of_lt (by rw [Nat.shiftLeft_eq]; omega)]
  rw [h, shift_or_eq_add (by omega)]; norm_num

theorem packLow_toNat (b : Code) : (packLow b).toNat = b.toNat % 256 := by
  simp only [packLow, BitVec.toNat_setWidth]

@[simp] theorem lowWord_toNat (c : Byte) : (lowWord c).toNat = c.toNat := by
  simp only [lowWord, BitVec.toNat_setWidth]
  exact Nat.mod_eq_of_lt (by omega)

@[simp] theorem zext16_toNat (c : Code) : (zext16 c).toNat = c.toNat := by
  simp only [zext16, BitVec.toNat_setWidth]
  exact Nat.mod_eq_of_lt (by omega)

theorem highWord_toNat (h : BitVec 4) (c : Code) : (highWord h c).toNat = h.toNat * 4096 + c.toNat := by
  have e : (highWord h c).toNat = h.toNat <<< 12 ||| c.toNat := by
    simp only [highWord, BitVec.toNat_or, BitVec.toNat_shiftLeft, BitVec.toNat_setWidth]
    rw [Nat.mod_eq_of_lt (a := h.toNat) (by omega), Nat.mod_eq_of_lt (a := c.toNat) (by omega),
      Nat.mod_eq_of_lt (by rw [Nat.shiftLeft_eq]; omega)]
  rw [e, shift_or_eq_add (by omega)]; norm_num

/-! ### Triples -/

/-- Extraction undoes packing (R72). -/
theorem codeA_pack (a b : Code) : codeA (packHigh a) (packMid a b) = a := by
  apply BitVec.eq_of_toNat_eq
  rw [codeA_toNat, packHigh_toNat, packMid_toNat]
  omega

theorem codeB_pack (a b : Code) : codeB (packMid a b) (packLow b) = b := by
  apply BitVec.eq_of_toNat_eq
  rw [codeB_toNat, packMid_toNat, packLow_toNat]
  omega

theorem packHigh_code (b0 b1 : Byte) : packHigh (codeA b0 b1) = b0 := by
  apply BitVec.eq_of_toNat_eq
  rw [packHigh_toNat, codeA_toNat]
  omega

theorem packMid_code (b0 b1 b2 : Byte) : packMid (codeA b0 b1) (codeB b1 b2) = b1 := by
  apply BitVec.eq_of_toNat_eq
  rw [packMid_toNat, codeA_toNat, codeB_toNat]
  omega

theorem packLow_code (b1 b2 : Byte) : packLow (codeB b1 b2) = b2 := by
  apply BitVec.eq_of_toNat_eq
  rw [packLow_toNat, codeB_toNat]
  omega

/-! ### 16-bit words -/

/-- `wide` is concatenation (R62). -/
theorem wide_eq_append (hi lo : Byte) : wide hi lo = hi ++ lo := by
  apply BitVec.eq_of_toNat_eq
  rw [wide_toNat, BitVec.toNat_append, shift_or_eq_add (by omega)]; norm_num

theorem wide_bytes (w : CodeWord) : wide ((w >>> 8).setWidth 8) (w.setWidth 8) = w := by
  apply BitVec.eq_of_toNat_eq
  rw [wide_toNat]
  simp only [BitVec.toNat_setWidth, BitVec.toNat_ushiftRight, Nat.shiftRight_eq_div_pow]
  omega

theorem wordBytes_wide (hi lo : Byte) : wordBytes (wide hi lo) = [hi, lo] := by
  simp only [wordBytes, List.cons.injEq, and_true]
  constructor <;> apply BitVec.eq_of_toNat_eq <;>
    simp only [BitVec.toNat_setWidth, BitVec.toNat_ushiftRight, Nat.shiftRight_eq_div_pow, wide_toNat] <;> omega

/-! ### The ranges of R76 -/

theorem lowWord_setWidth {c : CodeWord} (h : c.toNat < 256) : lowWord (c.setWidth 8) = c := by
  apply BitVec.eq_of_toNat_eq
  simp only [lowWord_toNat, BitVec.toNat_setWidth]
  omega

theorem zext16_setWidth {c : CodeWord} (h : c.toNat < 4096) : zext16 (c.setWidth 12) = c := by
  apply BitVec.eq_of_toNat_eq
  simp only [zext16_toNat, BitVec.toNat_setWidth]
  omega

theorem highWord_split (c : CodeWord) : highWord ((c >>> 12).setWidth 4) (c.setWidth 12) = c := by
  apply BitVec.eq_of_toNat_eq
  simp only [highWord_toNat, BitVec.toNat_setWidth, BitVec.toNat_ushiftRight, Nat.shiftRight_eq_div_pow]
  omega

theorem setWidth_lowWord (c : Byte) : (lowWord c).setWidth 8 = c := by
  apply BitVec.eq_of_toNat_eq
  simp only [lowWord_toNat, BitVec.toNat_setWidth]
  omega

theorem setWidth_zext16 (c : Code) : (zext16 c).setWidth 12 = c := by
  apply BitVec.eq_of_toNat_eq
  simp only [zext16_toNat, BitVec.toNat_setWidth]
  omega

theorem setWidth_highWord (h : BitVec 4) (c : Code) : (highWord h c).setWidth 12 = c := by
  apply BitVec.eq_of_toNat_eq
  simp only [highWord_toNat, BitVec.toNat_setWidth]
  omega

theorem shift_highWord (h : BitVec 4) (c : Code) : ((highWord h c) >>> 12).setWidth 4 = h := by
  apply BitVec.eq_of_toNat_eq
  simp only [highWord_toNat, BitVec.toNat_setWidth, BitVec.toNat_ushiftRight, Nat.shiftRight_eq_div_pow]
  omega

theorem highWord_ge {h : BitVec 4} (hh : h ≠ 0) (c : Code) : 4096 ≤ (highWord h c).toNat := by
  have : h.toNat ≠ 0 := fun e => hh (BitVec.eq_of_toNat_eq (by simpa using e))
  rw [highWord_toNat]
  omega

theorem decodeSeedWord_low (c : Byte) : decodeSeedWord (lowWord c) = .dSeedLegal c := by
  have h : c.toNat < 256 := by omega
  simp [decodeSeedWord, h, setWidth_lowWord]

theorem decodeSeedWord_mid {c : Code} (h : 256 ≤ c.toNat) : decodeSeedWord (zext16 c) = .dDynamic c := by
  have h' : c.toNat < 4096 := by omega
  simp [decodeSeedWord, Nat.not_lt.2 h, h', setWidth_zext16]

theorem decodeSeedWord_high {c : CodeWord} (h : 4096 ≤ c.toNat) : decodeSeedWord c = .dSeed c := by
  simp [decodeSeedWord, show ¬ c.toNat < 256 by omega, show ¬ c.toNat < 4096 by omega]

theorem decodeLoopWord_low (c : Byte) : decodeLoopWord (lowWord c) = .dKnownStatic c := by
  have h : c.toNat < 256 := by omega
  simp [decodeLoopWord, h, setWidth_lowWord]

theorem decodeLoopWord_mid {c : Code} (h : 256 ≤ c.toNat) : decodeLoopWord (zext16 c) = .dDynamic c := by
  have h' : c.toNat < 4096 := by omega
  simp [decodeLoopWord, Nat.not_lt.2 h, h', setWidth_zext16]

theorem decodeLoopWord_high {h : BitVec 4} (hh : h ≠ 0) (c : Code) :
    decodeLoopWord (highWord h c) = .dSelfrefStatic h c := by
  have := highWord_ge hh c
  simp [decodeLoopWord, show ¬ (highWord h c).toNat < 256 by omega, show ¬ (highWord h c).toNat < 4096 by omega,
    setWidth_highWord, shift_highWord]

theorem encode_decodeSeedWord (c : CodeWord) : encode (decodeSeedWord c) = wordBytes c := by
  unfold decodeSeedWord
  split
  · next h => rw [encode, lowWord_setWidth h]
  · split
    · next h => rw [encode, zext16_setWidth h]
    · rfl

theorem encode_decodeLoopWord (c : CodeWord) : encode (decodeLoopWord c) = wordBytes c := by
  unfold decodeLoopWord
  split
  · next h => rw [encode, lowWord_setWidth h]
  · split
    · next h => rw [encode, zext16_setWidth h]
    · rw [encode, highWord_split]

/-! ### One word in a slot -/

theorem decode_pair (w : CodeWord) : decode .pair (wordBytes w) = .ok (.xPair16 w) :=
  congrArg (fun v => Except.ok (Instr.xPair16 v)) (wide_bytes w)

theorem decode_buffer_pair (w : CodeWord) : decode .buffer (wordBytes w) = .ok (.xPair16 w) :=
  congrArg (fun v => Except.ok (Instr.xPair16 v)) (wide_bytes w)

theorem decode_tail1 (w : CodeWord) : decode .tail1 (wordBytes w) = .ok (.xTail1 w) :=
  congrArg (fun v => Except.ok (Instr.xTail1 v)) (wide_bytes w)

theorem decode_seedWord (w : CodeWord) : decode .seedWord (wordBytes w) = .ok (decodeSeedWord w) :=
  congrArg (fun v => Except.ok (decodeSeedWord v)) (wide_bytes w)

theorem decode_loopWord (w : CodeWord) : decode .loopWord (wordBytes w) = .ok (decodeLoopWord w) :=
  congrArg (fun v => Except.ok (decodeLoopWord v)) (wide_bytes w)

theorem decode_seedStep (w : CodeWord) : decode .seedStep (wordBytes w) = .ok (.dSeed w) :=
  congrArg (fun v => Except.ok (Instr.dSeed v)) (wide_bytes w)

theorem decode_loopStep (size : Size) (w : CodeWord) :
    decode (.loopStep size) (wordBytes w) = .ok (decodeLoopStep size w) :=
  congrArg (fun v => Except.ok (decodeLoopStep size v)) (wide_bytes w)

theorem decodeTriple_pack (a b : Code) : decodeTriple (packHigh a) (packMid a b) (packLow b) = .xTriple a b := by
  rw [decodeTriple, codeA_pack, codeB_pack]

theorem decode_bare {i : Instr} (h : i.format = .none) : decode (.bare i) [] = .ok i := by
  simp [decode, h]

end Sys2Proof
end

