-- ==== Sys2Proof/Laws/Ops.lean ====
section
/-! SUPPORT. Every shared operation once: when it answers a next state, and which. -/

namespace Sys2Proof.Machine

/-! ### Going on and stopping -/

section AndThen

variable {α β γ : Type}

@[simp] theorem andThen_next (a : α) (f : α → Res β) : andThen (.next a) f = f a := rfl

@[simp] theorem andThen_fault (r : Fault) (f : α → Res β) : andThen (.fault r) f = .fault r := rfl

@[simp] theorem andThen_refused (r : Refusal) (f : α → Res β) : andThen (.refused r) f = .refused r := rfl

theorem andThen_eq_next {x : Res α} {f : α → Res β} {b : β} :
    andThen x f = .next b ↔ ∃ a, x = .next a ∧ f a = .next b := by
  cases x <;> simp [andThen]

theorem andThen_assoc (x : Res α) (f : α → Res β) (g : β → Res γ) :
    andThen (andThen x f) g = andThen x fun a => andThen (f a) g := by
  cases x <;> rfl

end AndThen

/-! ### Operands -/

theorem readIn_eq_next {s : State} {a : Nat} {b : Byte} :
    readIn s a = .next b ↔ a < s.inLen ∧ cellsRead s.inMem a = some b := by
  unfold readIn
  split
  · split <;> simp_all
  · simp_all

theorem readCode_eq_next {s : State} {i : Nat} {c : CodeWord} :
    readCode s i = .next c ↔ i < s.nCodes ∧ cellsRead s.codes i = some c := by
  unfold readCode
  split
  · split <;> simp_all
  · simp_all

theorem lookup_eq_next {s : State} {k : Nat} {t : Str} :
    lookup s k = .next t ↔ k < s.dictSize.toNat ∧ dictRead s.dict k = some t := by
  unfold lookup
  split
  · split <;> simp_all
  · simp_all

theorem lookup_absent {s : State} {k : Nat} (h : s.dictSize.toNat ≤ k) : lookup s k = .fault (.readOutside .dict k) := by
  simp [lookup, Nat.not_lt.2 h]

theorem lookup_unwritten {s : State} {k : Nat} (hk : k < s.dictSize.toNat) (h : dictRead s.dict k = none) :
    lookup s k = .fault (.readUnwritten .dict k) := by
  simp [lookup, hk, h]

theorem readIn_absent {s : State} {a : Nat} (h : s.inLen ≤ a) : readIn s a = .fault (.readOutside .input a) := by
  simp [readIn, Nat.not_lt.2 h]

theorem readIn_unwritten {s : State} {a : Nat} (ha : a < s.inLen) (h : cellsRead s.inMem a = none) :
    readIn s a = .fault (.readUnwritten .input a) := by
  simp [readIn, ha, h]

theorem readCode_absent {s : State} {i : Nat} (h : s.nCodes ≤ i) : readCode s i = .fault (.readOutside .codes i) := by
  simp [readCode, Nat.not_lt.2 h]

theorem readCode_unwritten {s : State} {i : Nat} (hi : i < s.nCodes) (h : cellsRead s.codes i = none) :
    readCode s i = .fault (.readUnwritten .codes i) := by
  simp [readCode, hi, h]

@[simp] theorem first_cons (b : Byte) (r : Str) : first (b :: r) = .next b := rfl

theorem first_eq_next {t : Str} {b : Byte} : first t = .next b ↔ ∃ r, t = b :: r := by
  cases t with
  | nil => simp [first]
  | cons x r => simp [first]

theorem readPair_eq_next {s : State} {a : Nat} {p : Byte × Byte} :
    readPair s a = .next p ↔ readIn s a = .next p.1 ∧ readIn s (a + 1) = .next p.2 := by
  obtain ⟨x, y⟩ := p
  simp only [readPair, andThen_eq_next, Host.Outcome.next.injEq, Prod.mk.injEq]
  constructor
  · rintro ⟨_, h1, _, h2, rfl, rfl⟩
    exact ⟨h1, h2⟩
  · rintro ⟨h1, h2⟩
    exact ⟨x, h1, y, h2, rfl, rfl⟩

theorem readIn_ne_refused (s : State) (a : Nat) (r : Refusal) : readIn s a ≠ .refused r := by
  unfold readIn
  split
  · split <;> simp
  · simp

theorem readCode_ne_refused (s : State) (i : Nat) (r : Refusal) : readCode s i ≠ .refused r := by
  unfold readCode
  split
  · split <;> simp
  · simp

theorem lookup_ne_refused (s : State) (k : Nat) (r : Refusal) : lookup s k ≠ .refused r := by
  unfold lookup
  split
  · split <;> simp
  · simp

theorem first_ne_refused (t : Str) (r : Refusal) : first t ≠ .refused r := by
  cases t <;> simp [first]

/-! ### The dictionary engine -/

/-- The state an insertion of R108 goes into: after the reset of a full dictionary. -/
def growFrom (s : State) : State := if full s then dictReset s else s

@[simp] theorem growFrom_dict (s : State) : (growFrom s).dict = s.dict := by unfold growFrom; split <;> rfl

theorem growFrom_eq (s : State) : growFrom s = { s with dictSize := (growFrom s).dictSize } := by
  unfold growFrom; split <;> rfl

@[simp] theorem growFrom_dictExp (s : State) : (growFrom s).dictExp = s.dictExp := by rw [growFrom_eq]
@[simp] theorem growFrom_start (s : State) : (growFrom s).start = s.start := by rw [growFrom_eq]
@[simp] theorem growFrom_srcOk (s : State) : (growFrom s).srcOk = s.srcOk := by rw [growFrom_eq]
@[simp] theorem growFrom_phase (s : State) : (growFrom s).phase = s.phase := by rw [growFrom_eq]
@[simp] theorem growFrom_faultCode (s : State) : (growFrom s).faultCode = s.faultCode := by rw [growFrom_eq]
@[simp] theorem growFrom_outValid (s : State) : (growFrom s).outValid = s.outValid := by rw [growFrom_eq]
@[simp] theorem growFrom_faultInfo (s : State) : (growFrom s).faultInfo = s.faultInfo := by rw [growFrom_eq]
@[simp] theorem growFrom_inLen (s : State) : (growFrom s).inLen = s.inLen := by rw [growFrom_eq]
@[simp] theorem growFrom_nCodes (s : State) : (growFrom s).nCodes = s.nCodes := by rw [growFrom_eq]
@[simp] theorem growFrom_outLen (s : State) : (growFrom s).outLen = s.outLen := by rw [growFrom_eq]
@[simp] theorem growFrom_bi (s : State) : (growFrom s).bi = s.bi := by rw [growFrom_eq]
@[simp] theorem growFrom_ci (s : State) : (growFrom s).ci = s.ci := by rw [growFrom_eq]
@[simp] theorem growFrom_prevCode (s : State) : (growFrom s).prevCode = s.prevCode := by rw [growFrom_eq]
@[simp] theorem growFrom_maxSize (s : State) : (growFrom s).maxSize = s.maxSize := by rw [growFrom_eq]
@[simp] theorem growFrom_inMem (s : State) : (growFrom s).inMem = s.inMem := by rw [growFrom_eq]
@[simp] theorem growFrom_codes (s : State) : (growFrom s).codes = s.codes := by rw [growFrom_eq]
@[simp] theorem growFrom_outMem (s : State) : (growFrom s).outMem = s.outMem := by rw [growFrom_eq]
@[simp] theorem growFrom_work (s : State) : (growFrom s).work = s.work := by rw [growFrom_eq]
@[simp] theorem growFrom_fsm (s : State) : (growFrom s).fsm = s.fsm := by rw [growFrom_eq]
@[simp] theorem growFrom_grow (s : State) : (growFrom s).grow = s.grow := by rw [growFrom_eq]
@[simp] theorem growFrom_freeCount (s : State) : (growFrom s).freeCount = s.freeCount := by rw [growFrom_eq]

theorem growFrom_size (s : State) : (growFrom s).dictSize.toNat = insertKey s.maxSize.toNat s.dictSize.toNat := by
  unfold growFrom insertKey
  split <;> rfl

theorem dictInsert_eq_next {t : Str} {s u : State} :
    dictInsert t s = .next u ↔ s.dictSize.toNat < 4096 ∧ u = insertAt t s := by
  unfold dictInsert
  split
  · simp_all [eq_comm]
  · simp_all

/-- R108: an insertion never stops when `M` is a legal one. -/
theorem insertKey_lt {m n : Nat} (h : m ≤ 4096) : insertKey m n < 4096 := by
  unfold insertKey
  split <;> omega

theorem dictGrow_eq (t : Str) (s : State) (h : s.maxSize.toNat ≤ 4096) :
    dictGrow t s = .next (insertAt t (growFrom s)) := by
  have : dictInsert t (growFrom s) = .next (insertAt t (growFrom s)) :=
    dictInsert_eq_next.2 ⟨by rw [growFrom_size]; exact insertKey_lt h, rfl⟩
  exact this

theorem insertAt_size (t : Str) (s : State) (h : s.dictSize.toNat < 4096) :
    (insertAt t s).dictSize.toNat = s.dictSize.toNat + 1 := by
  rw [insertAt_dictSize, BitVec.toNat_add, show (1 : Size).toNat = 1 from rfl]
  omega

theorem insertGrow_size (t : Str) (s : State) (h : insertKey s.maxSize.toNat s.dictSize.toNat < 4096) :
    (insertAt t (growFrom s)).dictSize.toNat = insertKey s.maxSize.toNat s.dictSize.toNat + 1 := by
  rw [← growFrom_size] at h ⊢
  exact insertAt_size t _ h

/-! ### The decoder sequence -/

theorem prelude_stale {s : State} (h : s.dictSize.toNat ≤ s.prevCode.toNat) (c : CodeWord) (body : State → Res State) :
    prelude c body s = .next (raiseFault .internalInconsistency s.prevCode.toNat (latchWord c s)) := by
  simp [prelude, Nat.not_lt.2 h]

theorem prelude_live {s : State} {p : Str} (h : s.prevCode.toNat < s.dictSize.toNat)
    (hp : dictRead s.dict s.prevCode.toNat = some p) (c : CodeWord) (body : State → Res State) :
    prelude c body s = body (writeEntry .prevEntry p (latchWord c s)) := by
  have hl : lookup s s.prevCode.toNat = .next p := lookup_eq_next.2 ⟨h, hp⟩
  simp [prelude, h, hl]

/-- The state Case A leaves (R123), `p` the previous entry, `e` the current one, `b` its first byte. -/
def knownEnd (c : CodeWord) (p e : Str) (b : Byte) (s : State) : State :=
  finishKnown c (insertAt (p ++ [b]) (growFrom (outAppend e
    { s with work := { s.work with currEntry := e, newEntry := p ++ [b], emitted := e } })))

/-- The state Case B leaves (R124). -/
def selfrefEnd (t : Str) (s : State) : State :=
  finishSelfref (insertAt t (growFrom (outAppend t { s with work := { s.work with newEntry := t, emitted := t } })))

theorem caseA_eq {c : CodeWord} {s : State} {b : Byte} {r : Str} (hc : c.toNat < s.dictSize.toNat)
    (he : dictRead s.dict c.toNat = some (b :: r)) (hm : s.maxSize.toNat ≤ 4096) :
    caseA c s = .next (knownEnd c s.work.prevEntry (b :: r) b s) := by
  have hl : lookup s c.toNat = .next (b :: r) := lookup_eq_next.2 ⟨hc, he⟩
  simp only [caseA, formKnown, hl, andThen_next, first_cons]
  rw [dictGrow_eq _ _ (by exact hm)]
  rfl

theorem caseB_eq {s : State} {b : Byte} {r : Str} (hp : s.work.prevEntry = b :: r) (hm : s.maxSize.toNat ≤ 4096) :
    caseB s = .next (selfrefEnd ((b :: r) ++ [b]) s) := by
  have hf : first s.work.prevEntry = .next b := first_eq_next.2 ⟨r, hp⟩
  simp only [caseB, formSelfref, hf, andThen_next]
  rw [dictGrow_eq _ _ (by exact hm), ← hp]
  rfl

theorem seedStep_present {c : CodeWord} {s : State} {t : Str} (hc : c.toNat < s.dictSize.toNat)
    (ht : dictRead s.dict c.toNat = some t) : seedStep c s = .next (seedFinish c t (latchWord c s)) := by
  have hl : lookup s c.toNat = .next t := lookup_eq_next.2 ⟨hc, ht⟩
  simp [seedStep, hc, hl]

theorem seedStep_absent {c : CodeWord} {s : State} (hc : s.dictSize.toNat ≤ c.toNat) :
    seedStep c s = .next (raiseFault .unknownSeedCode c.toNat (latchWord c s)) := by
  simp [seedStep, Nat.not_lt.2 hc]

/-! ### The end of a main-loop step, field by field -/

section LoopEnds

variable (c : CodeWord) (p e : Str) (b : Byte) (t : Str) (s : State)

@[simp] theorem knownEnd_dictExp : (knownEnd c p e b s).dictExp = s.dictExp := by simp [knownEnd]
@[simp] theorem knownEnd_start : (knownEnd c p e b s).start = s.start := by simp [knownEnd]
@[simp] theorem knownEnd_srcOk : (knownEnd c p e b s).srcOk = s.srcOk := by simp [knownEnd]
@[simp] theorem knownEnd_phase : (knownEnd c p e b s).phase = s.phase := by simp [knownEnd]
@[simp] theorem knownEnd_faultCode : (knownEnd c p e b s).faultCode = s.faultCode := by simp [knownEnd]
@[simp] theorem knownEnd_outValid : (knownEnd c p e b s).outValid = s.outValid := by simp [knownEnd]
@[simp] theorem knownEnd_faultInfo : (knownEnd c p e b s).faultInfo = s.faultInfo := by simp [knownEnd]
@[simp] theorem knownEnd_inLen : (knownEnd c p e b s).inLen = s.inLen := by simp [knownEnd]
@[simp] theorem knownEnd_nCodes : (knownEnd c p e b s).nCodes = s.nCodes := by simp [knownEnd]
@[simp] theorem knownEnd_bi : (knownEnd c p e b s).bi = s.bi := by simp [knownEnd]
@[simp] theorem knownEnd_maxSize : (knownEnd c p e b s).maxSize = s.maxSize := by simp [knownEnd]
@[simp] theorem knownEnd_inMem : (knownEnd c p e b s).inMem = s.inMem := by simp [knownEnd]
@[simp] theorem knownEnd_codes : (knownEnd c p e b s).codes = s.codes := by simp [knownEnd]
@[simp] theorem knownEnd_fsm : (knownEnd c p e b s).fsm = s.fsm := by simp [knownEnd]
@[simp] theorem knownEnd_grow : (knownEnd c p e b s).grow = s.grow := by simp [knownEnd]
@[simp] theorem knownEnd_freeCount : (knownEnd c p e b s).freeCount = s.freeCount := by simp [knownEnd]
@[simp] theorem knownEnd_outLen : (knownEnd c p e b s).outLen = s.outLen + e.length := by simp [knownEnd]
@[simp] theorem knownEnd_outMem : (knownEnd c p e b s).outMem = memWriteBytes s.outMem s.outLen e := by simp [knownEnd]
@[simp] theorem knownEnd_ci : (knownEnd c p e b s).ci = s.ci + 1 := by simp [knownEnd]
@[simp] theorem knownEnd_prevCode : (knownEnd c p e b s).prevCode = c.setWidth 12 := by simp [knownEnd]
theorem knownEnd_key : (knownEnd c p e b s).work.key.toNat = insertKey s.maxSize.toNat s.dictSize.toNat :=
  growFrom_size _
theorem knownEnd_newEntry : (knownEnd c p e b s).work.newEntry = p ++ [b] := by simp [knownEnd]
@[simp] theorem knownEnd_dict :
    (knownEnd c p e b s).dict = dictWrite s.dict (insertKey s.maxSize.toNat s.dictSize.toNat) (p ++ [b]) := by
  simp [knownEnd, growFrom_size]
theorem knownEnd_size (h : insertKey s.maxSize.toNat s.dictSize.toNat < 4096) :
    (knownEnd c p e b s).dictSize.toNat = insertKey s.maxSize.toNat s.dictSize.toNat + 1 :=
  insertGrow_size (p ++ [b]) _ h

@[simp] theorem selfrefEnd_dictExp : (selfrefEnd t s).dictExp = s.dictExp := by simp [selfrefEnd]
@[simp] theorem selfrefEnd_start : (selfrefEnd t s).start = s.start := by simp [selfrefEnd]
@[simp] theorem selfrefEnd_srcOk : (selfrefEnd t s).srcOk = s.srcOk := by simp [selfrefEnd]
@[simp] theorem selfrefEnd_phase : (selfrefEnd t s).phase = s.phase := by simp [selfrefEnd]
@[simp] theorem selfrefEnd_faultCode : (selfrefEnd t s).faultCode = s.faultCode := by simp [selfrefEnd]
@[simp] theorem selfrefEnd_outValid : (selfrefEnd t s).outValid = s.outValid := by simp [selfrefEnd]
@[simp] theorem selfrefEnd_faultInfo : (selfrefEnd t s).faultInfo = s.faultInfo := by simp [selfrefEnd]
@[simp] theorem selfrefEnd_inLen : (selfrefEnd t s).inLen = s.inLen := by simp [selfrefEnd]
@[simp] theorem selfrefEnd_nCodes : (selfrefEnd t s).nCodes = s.nCodes := by simp [selfrefEnd]
@[simp] theorem selfrefEnd_bi : (selfrefEnd t s).bi = s.bi := by simp [selfrefEnd]
@[simp] theorem selfrefEnd_maxSize : (selfrefEnd t s).maxSize = s.maxSize := by simp [selfrefEnd]
@[simp] theorem selfrefEnd_inMem : (selfrefEnd t s).inMem = s.inMem := by simp [selfrefEnd]
@[simp] theorem selfrefEnd_codes : (selfrefEnd t s).codes = s.codes := by simp [selfrefEnd]
@[simp] theorem selfrefEnd_fsm : (selfrefEnd t s).fsm = s.fsm := by simp [selfrefEnd]
@[simp] theorem selfrefEnd_grow : (selfrefEnd t s).grow = s.grow := by simp [selfrefEnd]
@[simp] theorem selfrefEnd_freeCount : (selfrefEnd t s).freeCount = s.freeCount := by simp [selfrefEnd]
@[simp] theorem selfrefEnd_outLen : (selfrefEnd t s).outLen = s.outLen + t.length := by simp [selfrefEnd]
@[simp] theorem selfrefEnd_outMem : (selfrefEnd t s).outMem = memWriteBytes s.outMem s.outLen t := by simp [selfrefEnd]
@[simp] theorem selfrefEnd_ci : (selfrefEnd t s).ci = s.ci + 1 := by simp [selfrefEnd]
theorem selfrefEnd_key : (selfrefEnd t s).work.key.toNat = insertKey s.maxSize.toNat s.dictSize.toNat :=
  growFrom_size _
theorem selfrefEnd_newEntry : (selfrefEnd t s).work.newEntry = t := by simp [selfrefEnd]
theorem selfrefEnd_prevCode (h : insertKey s.maxSize.toNat s.dictSize.toNat < 4096) :
    (selfrefEnd t s).prevCode.toNat = insertKey s.maxSize.toNat s.dictSize.toNat := by
  have hk := selfrefEnd_key t s
  have hp : (selfrefEnd t s).prevCode = (selfrefEnd t s).work.key.setWidth 12 := rfl
  rw [hp, BitVec.toNat_setWidth, hk]
  omega
@[simp] theorem selfrefEnd_dict :
    (selfrefEnd t s).dict = dictWrite s.dict (insertKey s.maxSize.toNat s.dictSize.toNat) t := by
  simp [selfrefEnd, growFrom_size]
theorem selfrefEnd_size (h : insertKey s.maxSize.toNat s.dictSize.toNat < 4096) :
    (selfrefEnd t s).dictSize.toNat = insertKey s.maxSize.toNat s.dictSize.toNat + 1 :=
  insertGrow_size t _ h

end LoopEnds

/-! ### Run control -/

theorem execRunStart_ok {s : State} (hq : s.phase.quiet = true) (h : s.srcOk = true) :
    execRunStart s = .next (beginRun s) := by
  simp [execRunStart, hq, h]

theorem execRunStart_unavailable {s : State} (hq : s.phase.quiet = true) (h : s.srcOk = false) :
    execRunStart s = .next (raiseFault .sourceUnavailable 0 (beginRun s)) := by
  simp [execRunStart, hq, h]

theorem execRunStart_busy {s : State} (hq : s.phase.quiet = false) : execRunStart s = .next s := by
  simp [execRunStart, hq]

theorem execRunCfgchk_legal {s : State} (h1 : 8 ≤ s.dictExp.toNat) (h2 : s.dictExp.toNat ≤ 12) :
    execRunCfgchk s = .next (latchMax s.dictExp { s with phase := .config }) :=
  if_neg (show ¬ (s.dictExp.toNat < 8 ∨ 12 < s.dictExp.toNat) by omega)

theorem execRunCfgchk_illegal {s : State} (h : s.dictExp.toNat < 8 ∨ 12 < s.dictExp.toNat) :
    execRunCfgchk s = .next (raiseFault .configurationError s.dictExp.toNat { s with phase := .config }) :=
  if_pos h

/-- "`M <- 1 << e`" (R153) is `2 ^ e` in 13 bits. -/
theorem latchMax_toNat {e : BitVec 4} (h : e.toNat ≤ 12) (s : State) : (latchMax e s).maxSize.toNat = 2 ^ e.toNat := by
  rw [latchMax_maxSize]
  generalize e.toNat = n at h ⊢
  interval_cases n <;> rfl

/-! ### Sequencing -/

theorem afterOp_fault {f : Fsm} {t : State} (h : t.phase = .fault) : afterOp f t = t := by
  simp [afterOp, h]

theorem afterOp_next {f : Fsm} {t : State} (h : t.phase ≠ .fault) :
    afterOp f t =
      { t with
        fsm := nextFsm f t
        phase := (nextFsm f t).phaseFrom t.phase
        ci := nextCi f t
        grow := nextGrow f t } := by
  simp [afterOp, h]

theorem afterOp_fsm {f : Fsm} {t : State} (h : t.phase ≠ .fault) : (afterOp f t).fsm = nextFsm f t := by
  rw [afterOp_next h]

theorem afterOp_phase {f : Fsm} {t : State} (h : t.phase ≠ .fault) :
    (afterOp f t).phase = (nextFsm f t).phaseFrom t.phase := by
  rw [afterOp_next h]

theorem afterOp_ci {f : Fsm} {t : State} (h : t.phase ≠ .fault) : (afterOp f t).ci = nextCi f t := by
  rw [afterOp_next h]

theorem afterOp_grow {f : Fsm} {t : State} (h : t.phase ≠ .fault) : (afterOp f t).grow = nextGrow f t := by
  rw [afterOp_next h]

theorem step_of_select {s : State} {a : Action} (h : select s = .next a) : step s = perform s a := by
  simp [step, h]

theorem step_of_op {s : State} {i : Instr} (h : select s = .next (.op i)) :
    step s = andThen (exec i (consumeStart s)) fun t => .next (afterOp s.fsm t) :=
  step_of_select h

theorem step_of_move {s t : State} (h : select s = .next (.move t)) : step s = .next (consumeStart t) :=
  step_of_select h

theorem step_eq_next {s t : State} : step s = .next t ↔ ∃ a, select s = .next a ∧ perform s a = .next t :=
  andThen_eq_next

/-- A step stops where its fetch stops. -/
theorem step_fault {s : State} {r : Fault} (h : select s = .fault r) : step s = .fault r := by
  rw [step, h]; rfl

/-! ### The host's port -/

theorem hostMayWrite_iff {s : State} : hostMayWrite s = true ↔ s.phase.quiet = true ∧ s.start = false := by
  simp [hostMayWrite]

theorem hostMayWrite_eq_false {s : State} : hostMayWrite s = false ↔ s.phase.quiet = false ∨ s.start = true := by
  cases h : s.phase.quiet <;> cases h' : s.start <;> simp [hostMayWrite, h, h']

/-! ### Runs -/

@[simp] theorem stepRun_zero (s : State) : stepRun 0 s = .next s := rfl

theorem stepRun_succ {s t : State} (h : step s = .next t) (n : Nat) : stepRun (n + 1) s = stepRun n t := by
  rw [stepRun, h, andThen_next]

theorem stepRun_add {n : Nat} {s t : State} (h : stepRun n s = .next t) (m : Nat) : stepRun (n + m) s = stepRun m t := by
  induction n generalizing s with
  | zero => rw [Host.Outcome.next.inj h, Nat.zero_add]
  | succ n ih =>
    obtain ⟨u, hu, h⟩ := andThen_eq_next.1 h
    rw [Nat.add_right_comm, stepRun_succ hu, ih h]

/-- The host's run is this one. -/
theorem core_run_eq (n : Nat) (s : State) : Sys2Proof.core.run n s = stepRun n s := by
  induction n generalizing s with
  | zero => rfl
  | succ n ih =>
    simp only [stepRun, Host.Core.run]
    cases h : step s with
    | next t =>
      rw [show Sys2Proof.core.step s = .next t from h]
      exact ih t
    | fault r => rw [show Sys2Proof.core.step s = .fault r from h]; rfl
    | refused r => rw [show Sys2Proof.core.step s = .refused r from h]; rfl

end Sys2Proof.Machine
end

