-- ==== Sys2Proof/Laws/Canonical.lean ====
section
/-! SUPPORT. The canonical form, kept by every shared operation that writes a space. -/

namespace Sys2Proof.Machine

/-- The form is a matter of the four spaces alone. -/
theorem Canonical.of_spaces {s t : State} (h : Canonical s) (h1 : t.inMem = s.inMem) (h2 : t.codes = s.codes)
    (h3 : t.dict = s.dict) (h4 : t.outMem = s.outMem) : Canonical t := by
  rw [Canonical, h1, h2, h3, h4]
  exact h

theorem Canonical.afterOp {s : State} (h : Canonical s) (f : Fsm) : Canonical (afterOp f s) :=
  h.of_spaces (afterOp_inMem s f) (afterOp_codes s f) (afterOp_dict s f) (afterOp_outMem s f)

theorem Canonical.consumeStart {s : State} (h : Canonical s) : Canonical (consumeStart s) := h

theorem Canonical.latchWord {s : State} (h : Canonical s) (c : CodeWord) : Canonical (latchWord c s) := h

theorem Canonical.writeEntry {s : State} (h : Canonical s) (dst : EntryReg) (t : Str) : Canonical (writeEntry dst t s) := h

theorem Canonical.outClear {s : State} (h : Canonical s) : Canonical (outClear s) := ⟨h.1, h.2.1, h.2.2.1, rfl⟩

theorem Canonical.outAppend {s : State} (h : Canonical s) (t : Str) : Canonical (outAppend t s) :=
  ⟨h.1, h.2.1, h.2.2.1, Memory.wf_writeBytes t _ _ h.2.2.2⟩

theorem Canonical.outDiscard {s : State} (h : Canonical s) : Canonical (outDiscard s) :=
  ⟨h.1, h.2.1, h.2.2.1, Memory.wf_writeBytes _ _ _ rfl⟩

theorem Canonical.raiseFault {s : State} (h : Canonical s) (f : RunFault) (info : Nat) : Canonical (raiseFault f info s) :=
  ⟨h.1, h.2.1, h.2.2.1, Memory.wf_writeBytes _ _ _ rfl⟩

theorem Canonical.writeCode {s : State} (h : Canonical s) (i : Nat) (w : CodeWord) : Canonical (writeCode i w s) :=
  ⟨h.1, CodeCells.wf_put _ i w h.2.1, h.2.2.1, h.2.2.2⟩

theorem Canonical.seedFinish {s : State} (h : Canonical s) (c : CodeWord) (t : Str) : Canonical (seedFinish c t s) :=
  ⟨h.1, h.2.1, h.2.2.1, Memory.wf_writeBytes t _ _ h.2.2.2⟩

theorem Canonical.dictInit {s : State} (h : Canonical s) : Canonical (dictInit s) := by
  rw [Canonical, dictInit_inMem, dictInit_codes, dictInit_dict, dictInit_outMem]
  exact ⟨h.1, h.2.1, DictCells.wf_copySnap _ _ h.2.2.1, h.2.2.2⟩

theorem Canonical.insertAt {s : State} (h : Canonical s) (t : Str) : Canonical (insertAt t s) :=
  ⟨h.1, h.2.1, DictCells.wf_write _ _ t h.2.2.1, h.2.2.2⟩

theorem Canonical.growFrom {s : State} (h : Canonical s) : Canonical (growFrom s) := by
  rw [growFrom_eq]
  exact h

theorem Canonical.beginRun {s : State} (h : Canonical s) : Canonical (beginRun s) := ⟨h.1, rfl, rfl, rfl⟩

theorem Canonical.knownEnd {s : State} (h : Canonical s) (c : CodeWord) (p e : Str) (b : Byte) :
    Canonical (knownEnd c p e b s) := by
  rw [Canonical, knownEnd_inMem, knownEnd_codes, knownEnd_dict, knownEnd_outMem]
  exact ⟨h.1, h.2.1, DictCells.wf_write _ _ _ h.2.2.1, Memory.wf_writeBytes _ _ _ h.2.2.2⟩

theorem Canonical.selfrefEnd {s : State} (h : Canonical s) (t : Str) : Canonical (selfrefEnd t s) := by
  rw [Canonical, selfrefEnd_inMem, selfrefEnd_codes, selfrefEnd_dict, selfrefEnd_outMem]
  exact ⟨h.1, h.2.1, DictCells.wf_write _ _ _ h.2.2.1, Memory.wf_writeBytes _ _ _ h.2.2.2⟩

end Sys2Proof.Machine
end

