-- ==== Sys2Proof/Laws/Inversion.lean ====
section
/-! SUPPORT. What an operation that answers a next state has done: one inversion lemma per meaning with a choice in it. -/

namespace Sys2Proof.Machine

theorem dictGrow_next {t : Str} {s u : State} (h : dictGrow t s = .next u) :
    (growFrom s).dictSize.toNat < 4096 ∧ u = insertAt t (growFrom s) :=
  dictInsert_eq_next.1 h

theorem prelude_next {c : CodeWord} {body : State → Res State} {s u : State} (h : prelude c body s = .next u) :
    (s.dictSize.toNat ≤ s.prevCode.toNat ∧ u = raiseFault .internalInconsistency s.prevCode.toNat (latchWord c s)) ∨
    (∃ p, s.prevCode.toNat < s.dictSize.toNat ∧ dictRead s.dict s.prevCode.toNat = some p ∧
      body (writeEntry .prevEntry p (latchWord c s)) = .next u) := by
  rcases Nat.lt_or_ge s.prevCode.toNat s.dictSize.toNat with hp | hp
  · simp only [prelude, prevPresent, hp, ↓reduceIte, andThen_eq_next] at h
    obtain ⟨p, h1, h2⟩ := h
    exact .inr ⟨p, hp, (lookup_eq_next.1 h1).2, h2⟩
  · rw [prelude_stale hp, Host.Outcome.next.injEq] at h
    exact .inl ⟨hp, h.symm⟩

theorem caseA_next {c : CodeWord} {s u : State} (h : caseA c s = .next u) :
    ∃ b r, c.toNat < s.dictSize.toNat ∧ dictRead s.dict c.toNat = some (b :: r) ∧
      insertKey s.maxSize.toNat s.dictSize.toNat < 4096 ∧ u = knownEnd c s.work.prevEntry (b :: r) b s := by
  simp only [caseA, formKnown, andThen_eq_next, Host.Outcome.next.injEq] at h
  obtain ⟨_, ⟨e, he, b, hb, rfl⟩, v, hv, rfl⟩ := h
  obtain ⟨r, rfl⟩ := first_eq_next.1 hb
  obtain ⟨h1, h2⟩ := lookup_eq_next.1 he
  obtain ⟨h3, rfl⟩ := dictGrow_next hv
  rw [growFrom_size] at h3
  exact ⟨b, r, h1, h2, h3, rfl⟩

theorem caseB_next {s u : State} (h : caseB s = .next u) :
    ∃ b r, s.work.prevEntry = b :: r ∧ insertKey s.maxSize.toNat s.dictSize.toNat < 4096 ∧
      u = selfrefEnd ((b :: r) ++ [b]) s := by
  simp only [caseB, formSelfref, andThen_eq_next, Host.Outcome.next.injEq] at h
  obtain ⟨_, ⟨b, hb, rfl⟩, v, hv, rfl⟩ := h
  obtain ⟨r, hr⟩ := first_eq_next.1 hb
  obtain ⟨h3, rfl⟩ := dictGrow_next hv
  rw [growFrom_size] at h3
  exact ⟨b, r, hr, h3, by rw [← hr]; rfl⟩

theorem seedStep_next {c : CodeWord} {s u : State} (h : seedStep c s = .next u) :
    (s.dictSize.toNat ≤ c.toNat ∧ u = raiseFault .unknownSeedCode c.toNat (latchWord c s)) ∨
    (∃ t, c.toNat < s.dictSize.toNat ∧ dictRead s.dict c.toNat = some t ∧ u = seedFinish c t (latchWord c s)) := by
  rcases Nat.lt_or_ge c.toNat s.dictSize.toNat with hp | hp
  · simp only [seedStep, present, hp, ↓reduceIte, andThen_eq_next, Host.Outcome.next.injEq] at h
    obtain ⟨t, h1, h2⟩ := h
    exact .inr ⟨t, hp, (lookup_eq_next.1 h1).2, h2.symm⟩
  · rw [seedStep_absent hp, Host.Outcome.next.injEq] at h
    exact .inl ⟨hp, h.symm⟩

/-- The next state of a main-loop step of any kind: the fault of the prelude, the end of Case A or that of Case B. -/
inductive LoopEnd (s : State) : State → Prop where
  | stale (c : CodeWord) (h : s.dictSize.toNat ≤ s.prevCode.toNat) :
      LoopEnd s (raiseFault .internalInconsistency s.prevCode.toNat (latchWord c s))
  | known (c : CodeWord) (p r : Str) (b : Byte) (h : s.prevCode.toNat < s.dictSize.toNat)
      (hp : dictRead s.dict s.prevCode.toNat = some p) (hc : c.toNat < s.dictSize.toNat)
      (he : dictRead s.dict c.toNat = some (b :: r)) (hk : insertKey s.maxSize.toNat s.dictSize.toNat < 4096) :
      LoopEnd s (knownEnd c p (b :: r) b (writeEntry .prevEntry p (latchWord c s)))
  | selfref (c : CodeWord) (r : Str) (b : Byte) (h : s.prevCode.toNat < s.dictSize.toNat)
      (hp : dictRead s.dict s.prevCode.toNat = some (b :: r))
      (hk : insertKey s.maxSize.toNat s.dictSize.toNat < 4096) :
      LoopEnd s (selfrefEnd ((b :: r) ++ [b]) (writeEntry .prevEntry (b :: r) (latchWord c s)))

theorem prelude_caseA_end {c : CodeWord} {s u : State} (h : prelude c (caseA c) s = .next u) : LoopEnd s u := by
  rcases prelude_next h with ⟨hp, rfl⟩ | ⟨p, hp, hr, hb⟩
  · exact .stale c hp
  · obtain ⟨b, r, h1, h2, h3, rfl⟩ := caseA_next hb
    exact .known c p r b hp hr h1 h2 h3

theorem prelude_caseB_end {c : CodeWord} {s u : State} (h : prelude c caseB s = .next u) : LoopEnd s u := by
  rcases prelude_next h with ⟨hp, rfl⟩ | ⟨p, hp, hr, hb⟩
  · exact .stale c hp
  · obtain ⟨b, r, h1, h3, rfl⟩ := caseB_next hb
    obtain rfl : p = b :: r := h1
    exact .selfref c r b hp hr h3

theorem loopStep_end {c : CodeWord} {s u : State} (h : loopStep c s = .next u) : LoopEnd s u := by
  unfold loopStep at h
  by_cases hc : present s c
  · simp only [hc, ↓reduceIte] at h
    exact prelude_caseA_end h
  · simp only [hc, ↓reduceIte] at h
    exact prelude_caseB_end h

/-- A next state of a decoder operation is a seed step's or a main-loop step's. -/
theorem execDDynamic_next {c : Code} {s u : State} (h : execDDynamic c s = .next u) :
    seedStep (zext16 c) s = .next u ∨ LoopEnd s u := by
  unfold execDDynamic at h
  split at h
  · exact .inl h
  · exact .inr (loopStep_end h)

end Sys2Proof.Machine
end

