-- ==== Sys2Proof/Laws/PerInstr.lean ====
section
/-! SUPPORT. Statements about every operation as syntax, one lemma per constructor. -/

namespace Sys2Proof.Laws

/-- Encoded and decoded in any slot that selects it, a well-formed operation is itself. -/
def RoundTrip.Statement (i : Instr) : Prop :=
  ∀ slot : Slot, i.wf = true → slot.selects i = true → decode slot (encode i) = .ok i

/-- A slot that selects an operation without a format is the bare slot of it, or the whole buffer. -/
theorem selects_bare {slot : Slot} {i : Instr} (hf : i.format = .none) (hs : slot.selects i = true) :
    slot = .bare i ∨ (slot = .buffer ∧ i = .xEmpty) := by
  cases slot <;> cases i <;> simp_all [Slot.selects, Instr.format]

/-- The bare slot selects only operations without a format. -/
theorem bare_format {i j : Instr} (h : (Slot.bare j).selects i = true) : i.format = .none :=
  of_decide_eq_true ((Bool.and_eq_true _ _).mp h).2

/-- The round trip of an operation that consumes no bits. -/
theorem roundTrip_bare {i : Instr} (hf : i.format = .none) (he : encode i = []) : RoundTrip.Statement i := by
  intro slot _ hs
  rcases selects_bare hf hs with rfl | ⟨rfl, rfl⟩
  · rw [he, decode_bare hf]
  · rfl

theorem RoundTrip.runStart : RoundTrip.Statement .runStart := roundTrip_bare rfl rfl

theorem RoundTrip.runCfgchk : RoundTrip.Statement .runCfgchk := roundTrip_bare rfl rfl

theorem RoundTrip.runDone : RoundTrip.Statement .runDone := roundTrip_bare rfl rfl

theorem RoundTrip.runFault (f : RunFault) (info : Nat) : RoundTrip.Statement (.runFault f info) := roundTrip_bare rfl rfl

theorem RoundTrip.xEmpty : RoundTrip.Statement .xEmpty := roundTrip_bare rfl rfl

theorem RoundTrip.xOne : RoundTrip.Statement .xOne := roundTrip_bare rfl rfl

theorem RoundTrip.xPair16 (w : CodeWord) : RoundTrip.Statement (.xPair16 w) := by
  intro slot _ hs
  cases slot <;> first | exact absurd hs Bool.false_ne_true | exact absurd (bare_format hs) nofun | skip
  · exact decode_buffer_pair w
  · exact decode_pair w

theorem RoundTrip.xTriple (a : Code) (b : Code) : RoundTrip.Statement (.xTriple a b) := by
  intro slot _ hs
  cases slot <;> first | exact absurd hs Bool.false_ne_true | exact absurd (bare_format hs) nofun | skip
  · exact congrArg Except.ok (decodeTriple_pack a b)
  · exact congrArg Except.ok (decodeTriple_pack a b)

theorem RoundTrip.xTail1 (w : CodeWord) : RoundTrip.Statement (.xTail1 w) := by
  intro slot _ hs
  cases slot <;> first | exact absurd hs Bool.false_ne_true | exact absurd (bare_format hs) nofun | skip
  exact decode_tail1 w

theorem RoundTrip.xTail2 : RoundTrip.Statement .xTail2 := roundTrip_bare rfl rfl

theorem RoundTrip.dictInit : RoundTrip.Statement .dictInit := roundTrip_bare rfl rfl

theorem RoundTrip.dictLookup (dst : EntryReg) (k : Code) : RoundTrip.Statement (.dictLookup dst k) := roundTrip_bare rfl rfl

theorem RoundTrip.dictReset : RoundTrip.Statement .dictReset := roundTrip_bare rfl rfl

theorem RoundTrip.dictInsert (t : Str) : RoundTrip.Statement (.dictInsert t) := roundTrip_bare rfl rfl

theorem RoundTrip.dictGrow (t : Str) : RoundTrip.Statement (.dictGrow t) := roundTrip_bare rfl rfl

theorem RoundTrip.dSeed (c : CodeWord) : RoundTrip.Statement (.dSeed c) := by
  intro slot _ hs
  cases slot <;> first | exact absurd hs Bool.false_ne_true | exact absurd (bare_format hs) nofun | skip
  · exact (decode_seedWord c).trans (congrArg Except.ok (decodeSeedWord_high (of_decide_eq_true hs)))
  · exact decode_seedStep c

theorem RoundTrip.dKnown (c : CodeWord) : RoundTrip.Statement (.dKnown c) := by
  intro slot _ hs
  cases slot <;> first | exact absurd hs Bool.false_ne_true | exact absurd (bare_format hs) nofun | skip
  exact (decode_loopStep _ c).trans (congrArg Except.ok (if_pos (of_decide_eq_true hs)))

theorem RoundTrip.dSelfref (c : CodeWord) : RoundTrip.Statement (.dSelfref c) := by
  intro slot _ hs
  cases slot <;> first | exact absurd hs Bool.false_ne_true | exact absurd (bare_format hs) nofun | skip
  exact (decode_loopStep _ c).trans (congrArg Except.ok (if_neg (Nat.not_lt.2 (of_decide_eq_true hs))))

theorem RoundTrip.dSeedLegal (c : Byte) : RoundTrip.Statement (.dSeedLegal c) := by
  intro slot _ hs
  cases slot <;> first | exact absurd hs Bool.false_ne_true | exact absurd (bare_format hs) nofun | skip
  exact (decode_seedWord _).trans (congrArg Except.ok (decodeSeedWord_low c))

theorem RoundTrip.dKnownStatic (c : Byte) : RoundTrip.Statement (.dKnownStatic c) := by
  intro slot _ hs
  cases slot <;> first | exact absurd hs Bool.false_ne_true | exact absurd (bare_format hs) nofun | skip
  exact (decode_loopWord _).trans (congrArg Except.ok (decodeLoopWord_low c))

theorem RoundTrip.dSelfrefStatic (h : BitVec 4) (c : Code) : RoundTrip.Statement (.dSelfrefStatic h c) := by
  intro slot hw hs
  have hh : h ≠ 0 := by simpa [Instr.wf] using hw
  cases slot <;> first | exact absurd hs Bool.false_ne_true | exact absurd (bare_format hs) nofun | skip
  exact (decode_loopWord _).trans (congrArg Except.ok (decodeLoopWord_high hh c))

theorem RoundTrip.dDynamic (c : Code) : RoundTrip.Statement (.dDynamic c) := by
  intro slot hw hs
  have hc : 256 ≤ c.toNat := by simpa [Instr.wf] using hw
  cases slot <;> first | exact absurd hs Bool.false_ne_true | exact absurd (bare_format hs) nofun | skip
  · exact (decode_seedWord _).trans (congrArg Except.ok (decodeSeedWord_mid hc))
  · exact (decode_loopWord _).trans (congrArg Except.ok (decodeLoopWord_mid hc))

theorem RoundTrip.outClear : RoundTrip.Statement .outClear := roundTrip_bare rfl rfl

theorem RoundTrip.outAppend (t : Str) : RoundTrip.Statement (.outAppend t) := roundTrip_bare rfl rfl

theorem RoundTrip.outCommit : RoundTrip.Statement .outCommit := roundTrip_bare rfl rfl

theorem RoundTrip.outDiscard : RoundTrip.Statement .outDiscard := roundTrip_bare rfl rfl

end Sys2Proof.Laws
end

