-- ==== Sys2Proof/Tests/Slice0.lean ====
section
/-! SUPPORT. The model's own tests. Expected values come from spec/95_test_vectors.md (named V or P) or are worked out by
hand from the rule named. -/

open Sys2Proof Sys2Proof.Machine Sys2Proof.Statements

namespace Sys2Proof.Tests

/-- An outcome is a next state with a property. -/
def goes (r : Res State) (p : State → Bool) : Bool :=
  match r with
  | .next t => p t
  | .fault _ => false
  | .refused _ => false

/-- An outcome is this stop. -/
def stops (r : Res State) (f : Machine.Fault) : Bool :=
  match r with
  | .next _ => false
  | .fault g => decide (g = f)
  | .refused _ => false

/-! ### Every constructor from its word (spec/30_encoding.md R61, R62, R63, R75, R76) -/

theorem test_decode_xTriple : decode .triple [0xAB, 0xCD, 0xEF] = .ok (.xTriple 0xABC 0xDEF) := by decide
theorem test_decode_xTriple_first : decode .buffer [0x04, 0x10, 0x42, 0x43] = .ok (.xTriple 0x041 0x042) := by decide
theorem test_decode_xPair16 : decode .pair [0x12, 0x34] = .ok (.xPair16 0x1234) := by decide
theorem test_decode_xPair16_buffer : decode .buffer [0x00, 0x41] = .ok (.xPair16 0x0041) := by decide
theorem test_decode_xTail1 : decode .tail1 [0x42, 0x43] = .ok (.xTail1 0x4243) := by decide
theorem test_decode_xEmpty : decode .buffer [] = .ok .xEmpty := by decide
theorem test_decode_xOne : decode .buffer [0x41] = .ok .xOne := by decide
theorem test_decode_dSeed : decode .seedStep [0x01, 0x2C] = .ok (.dSeed 300) := by decide
theorem test_decode_dSeed_high : decode .seedWord [0x10, 0x00] = .ok (.dSeed 0x1000) := by decide
theorem test_decode_dKnown : decode (.loopStep 301) [0x01, 0x2C] = .ok (.dKnown 300) := by decide
theorem test_decode_dSelfref : decode (.loopStep 300) [0x01, 0x2C] = .ok (.dSelfref 300) := by decide
theorem test_decode_dSeedLegal : decode .seedWord [0x00, 0xFF] = .ok (.dSeedLegal 0xFF) := by decide
theorem test_decode_dKnownStatic : decode .loopWord [0x00, 0xFF] = .ok (.dKnownStatic 0xFF) := by decide
theorem test_decode_dSelfrefStatic : decode .loopWord [0x10, 0x00] = .ok (.dSelfrefStatic 0x1 0x000) := by decide
theorem test_decode_dDynamic_low : decode .loopWord [0x01, 0x00] = .ok (.dDynamic 0x100) := by decide
theorem test_decode_dDynamic_high : decode .seedWord [0x0F, 0xFF] = .ok (.dDynamic 0xFFF) := by decide

/-- The operations without a format are selected without bits (R77), all of them. -/
theorem test_decode_bare :
    ∀ i ∈ [Instr.runStart, .runCfgchk, .runDone, .runFault .malformedLength 1, .xEmpty, .xOne, .xTail2, .dictInit,
      .dictLookup .prevEntry 65, .dictReset, .dictInsert [65, 66], .dictGrow [65, 66], .outClear, .outAppend [65],
      .outCommit, .outDiscard], decode (.bare i) [] = .ok i := by decide

theorem test_decode_wrong_length : decode .triple [0x04, 0x10] = .error .wrongLength := by decide
theorem test_decode_needs_bits : decode (.bare (.dSeed 65)) [] = .error .needsBits := by decide

theorem test_encode_xTriple : encode (.xTriple 0xABC 0xDEF) = [0xAB, 0xCD, 0xEF] := by decide
theorem test_encode_xTail1 : encode (.xTail1 0x4243) = [0x42, 0x43] := by decide

theorem test_table_triple : decodeTableWord 24 0xABCDEF = some (.xTriple 0xABC 0xDEF) := by decide
theorem test_table_word : decodeTableWord 16 0x0041 = some (.dSeedLegal 0x41) := by decide
theorem test_table_empty : decodeTableWord 0 0 = some .xEmpty := by decide

theorem test_fetch_triple : goes (step (State.reset.withFetchWord 24 0x041042)) (fun t =>
    decide (t.codes = [(0, 0x041), (1, 0x042)] ∧ t.nCodes = 2 ∧ t.bi = 3)) = true := by decide
theorem test_fetch_seed : goes (step (State.reset.withFetchWord 16 0x0041)) (fun t =>
    decide (t.outMem = [(0, 0x41)] ∧ t.prevCode = 0x41 ∧ t.fsm = .sDone)) = true := by decide
theorem test_fetch_empty : goes (step (State.reset.withFetchWord 0 0)) (fun t =>
    decide (t.nCodes = 0 ∧ t.fsm = .sCfg)) = true := by decide

/-! ### Terms the operand check refuses, one per check -/

theorem test_wf_runFault : (Instr.runFault .malformedLength 2).wf = false := by decide
theorem test_wf_runFault_legal_exponent : (Instr.runFault .configurationError 12).wf = false := by decide
theorem test_wf_runFault_legal_seed : (Instr.runFault .unknownSeedCode 255).wf = false := by decide
theorem test_wf_runFault_high_code : (Instr.runFault .internalInconsistency 4096).wf = false := by decide
theorem test_wf_runFault_source : (Instr.runFault .sourceUnavailable 1).wf = false := by decide
theorem test_wf_dictInsert : (Instr.dictInsert []).wf = false := by decide
theorem test_wf_dictGrow : (Instr.dictGrow []).wf = false := by decide
theorem test_wf_outAppend : (Instr.outAppend []).wf = false := by decide
theorem test_wf_dKnown : (Instr.dKnown 4096).wf = false := by decide
theorem test_wf_dSelfref : (Instr.dSelfref 255).wf = false := by decide
theorem test_wf_dSelfrefStatic : (Instr.dSelfrefStatic 0 0x123).wf = false := by decide
theorem test_wf_dDynamic : (Instr.dDynamic 255).wf = false := by decide
theorem test_wf_accepts : (Instr.runFault .unknownSeedCode 256).wf = true ∧ (Instr.dDynamic 256).wf = true := by decide

/-! ### One instruction on a small state -/

/-- A state of the main loop at step `ci` with no entry above 255 yet. -/
def loopAt (ci : Nat) (prev : Code) (size m : Size) (d : DictCells) : State :=
  { State.reset with
    srcOk := true, phase := .loop, fsm := .sFetch
    ci := ci, nCodes := ci + 2, prevCode := prev, dictSize := size, maxSize := m, dict := d
    outLen := 1, outMem := [(0, 0x41)] }

theorem test_runStart : goes (exec .runStart { State.reset with srcOk := true, outLen := 9, outMem := [(0, 1)] }) (fun t =>
    decide (t.phase = .extract ∧ t.outLen = 0 ∧ t.outMem = [] ∧ t.bi = 0 ∧ t.nCodes = 0)) = true := by decide
/-- V73. -/
theorem test_runStart_no_source : goes (exec .runStart State.reset) (fun t =>
    decide (t.phase = .fault ∧ t.faultCode = some .sourceUnavailable ∧ t.faultInfo = 0)) = true := by decide
/-- V77. -/
theorem test_runCfgchk_8 : goes (exec .runCfgchk { State.reset with dictExp := 8 }) (fun t =>
    decide (t.maxSize = 256 ∧ t.phase = .config)) = true := by decide
/-- V75. -/
theorem test_runCfgchk_13 : goes (exec .runCfgchk { State.reset with dictExp := 13 }) (fun t =>
    decide (t.faultCode = some .configurationError ∧ t.faultInfo = 13 ∧ t.phase = .fault)) = true := by decide
theorem test_runDone : goes (exec .runDone (loopAt 1 0x41 256 4096 [])) (fun t =>
    decide (t.phase = .done ∧ t.outValid = true ∧ hostReadResult t = some [0x41])) = true := by decide
theorem test_runFault : goes (exec (.runFault .internalInconsistency 300) { State.reset with outValid := true }) (fun t =>
    decide (t.faultInfo = 300 ∧ hostReadStatus t = 0b0_100_110)) = true := by decide
theorem test_xEmpty : goes (exec .xEmpty { State.reset with nCodes := 7 }) (fun t => decide (t.nCodes = 0)) = true := by
  decide
/-- V20. -/
theorem test_xOne : goes (exec .xOne { State.reset with inLen := 1 }) (fun t =>
    decide (t.faultCode = some .malformedLength ∧ t.faultInfo = 1)) = true := by decide
/-- V12. -/
theorem test_xPair16 : goes (exec (.xPair16 0x1234) State.reset) (fun t =>
    decide (t.codes = [(0, 0x1234)] ∧ t.nCodes = 1 ∧ t.work.w16 = 0x1234)) = true := by decide
/-- V14, as the second triple of a buffer. -/
theorem test_xTriple : goes (exec (.xTriple 0xABC 0xDEF) { State.reset with nCodes := 2, bi := 3 }) (fun t =>
    decide (t.codes = [(2, 0xABC), (3, 0xDEF)] ∧ t.nCodes = 4 ∧ t.bi = 6 ∧ t.work.b1 = 0xCD)) = true := by decide
/-- V15. -/
theorem test_xTail1 : goes (exec (.xTail1 0x4243) { State.reset with nCodes := 2, codes := [(0, 0x41), (1, 0x42)] })
    (fun t => decide (t.codes = [(0, 0x41), (1, 0x4243)] ∧ t.nCodes = 2)) = true := by decide
theorem test_xTail1_stops : stops (exec (.xTail1 0x4243) State.reset) (.writeOutside .codes 0) = true := by decide
/-- V16. -/
theorem test_xTail2 : goes (exec .xTail2 (loopAt 1 0x41 256 4096 [])) (fun t => decide (t = loopAt 1 0x41 256 4096 [])) =
    true := by decide
theorem test_dictInit : goes (exec .dictInit { State.reset with dict := [(65, [1, 2]), (256, [3, 4])] }) (fun t =>
    decide (t.dictSize = 256 ∧ t.dict = [(256, [3, 4])])) = true := by
  rw [show exec .dictInit _ = .next (dictInit { State.reset with dict := [(65, [1, 2]), (256, [3, 4])] }) from rfl, goes]
  decide +kernel
theorem test_dictLookup : goes (exec (.dictLookup .currEntry 256) (loopAt 2 0x41 257 4096 [(256, [0x41, 0x42])])) (fun t =>
    decide (t.work.currEntry = [0x41, 0x42] ∧ t.work.prevEntry = [])) = true := by decide
theorem test_dictLookup_stale : stops (exec (.dictLookup .currEntry 257) (loopAt 2 0x41 257 4096 [(256, [0x41, 0x42])]))
    (.readOutside .dict 257) = true := by decide
theorem test_dictReset : goes (exec .dictReset (loopAt 2 0x41 257 4096 [(256, [0x41, 0x42])])) (fun t =>
    decide (t.dictSize = 256 ∧ t.dict = [(256, [0x41, 0x42])])) = true := by decide
theorem test_dictInsert_last : goes (exec (.dictInsert [1, 2]) (loopAt 2 0x41 4095 4096 [])) (fun t =>
    decide (t.dictSize = 4096 ∧ t.work.key = 4095 ∧ t.dict = [(4095, [1, 2])])) = true := by decide
theorem test_dictInsert_stops : stops (exec (.dictInsert [1, 2]) (loopAt 2 0x41 4096 4096 [])) (.writeOutside .dict 4096) =
    true := by decide
/-- V30, the step that resets: the key is 256. -/
theorem test_dictGrow_reset : goes (exec (.dictGrow [0x41, 0x41]) (loopAt 3841 0x41 4096 4096 [(256, [0x41, 0x41])]))
    (fun t => decide (t.dictSize = 257 ∧ t.work.key = 256)) = true := by decide
/-- V30, the step before it. -/
theorem test_dictGrow_no_reset : goes (exec (.dictGrow [0x41, 0x41]) (loopAt 3840 0x41 4095 4096 [])) (fun t =>
    decide (t.dictSize = 4096 ∧ t.work.key = 4095)) = true := by decide
/-- V41. -/
theorem test_dSeed : goes (exec (.dSeed 65) { State.reset with dictSize := 256 }) (fun t =>
    decide (t.outMem = [(0, 65)] ∧ t.outLen = 1 ∧ t.prevCode = 65 ∧ t.ci = 1)) = true := by decide
/-- V50. -/
theorem test_dSeed_256 : goes (exec (.dSeed 256) { State.reset with dictSize := 256 }) (fun t =>
    decide (t.faultCode = some .unknownSeedCode ∧ t.faultInfo = 256)) = true := by decide
theorem test_dSeedLegal : goes (exec (.dSeedLegal 0xFF) { State.reset with dictSize := 256 }) (fun t =>
    decide (t.outMem = [(0, 0xFF)] ∧ t.prevCode = 0xFF)) = true := by decide
/-- V47, step 1: `prev_entry` "A" and the first byte of "B". -/
theorem test_dKnown : goes (exec (.dKnown 66) (loopAt 1 65 256 4096 [])) (fun t =>
    decide (t.dict = [(256, [65, 66])] ∧ t.outMem = [(0, 65), (1, 66)] ∧ t.prevCode = 66 ∧ t.ci = 2)) = true := by decide
/-- V33, step 3841: the old entry 256 is emitted, the new one replaces it. -/
theorem test_dKnown_reset : goes (exec (.dKnown 256) (loopAt 3841 67 4096 4096 [(256, [65, 66])])) (fun t =>
    decide (t.dict = [(256, [67, 65])] ∧ t.outMem = [(0, 65), (1, 65), (2, 66)] ∧ t.prevCode = 256 ∧ t.dictSize = 257)) =
    true := by decide
/-- V47, step 2: `prev_code` becomes the inserted key, not the code. -/
theorem test_dSelfref : goes (exec (.dSelfref 300) (loopAt 2 66 257 4096 [(256, [65, 66])])) (fun t =>
    decide (t.dict = [(256, [65, 66]), (257, [66, 66])] ∧ t.outMem = [(0, 65), (1, 66), (2, 66)] ∧ t.prevCode = 257)) =
    true := by decide
/-- P6, step 258. -/
theorem test_dSelfref_stale : goes (exec (.dSelfref 300) (loopAt 258 300 257 512 [(256, [65, 65])])) (fun t =>
    decide (t.faultCode = some .internalInconsistency ∧ t.faultInfo = 300 ∧ t.dictSize = 257)) = true := by decide
theorem test_dKnownStatic : goes (exec (.dKnownStatic 66) (loopAt 1 65 256 4096 [])) (fun t =>
    decide (t.dict = [(256, [65, 66])] ∧ t.prevCode = 66)) = true := by decide
/-- V63. -/
theorem test_dSelfrefStatic : goes (exec (.dSelfrefStatic 0x4 0x243) (loopAt 1 65 256 4096 [])) (fun t =>
    decide (t.dict = [(256, [65, 65])] ∧ t.outMem = [(0, 65), (1, 65), (2, 65)] ∧ t.prevCode = 256)) = true := by decide
/-- P1, step 2: present. -/
theorem test_dDynamic_known : goes (exec (.dDynamic 256) (loopAt 2 66 257 4096 [(256, [65, 66])])) (fun t =>
    decide (t.dict = [(256, [65, 66]), (257, [66, 65])] ∧ t.prevCode = 256)) = true := by decide
/-- P1, step 3: absent. -/
theorem test_dDynamic_selfref : goes (exec (.dDynamic 258) (loopAt 3 256 258 4096 [(256, [65, 66]), (257, [66, 65])]))
    (fun t => decide (dictRead t.dict 258 = some [65, 66, 65] ∧ t.prevCode = 258)) = true := by decide
theorem test_outClear : goes (exec .outClear (loopAt 1 65 256 4096 [])) (fun t =>
    decide (t.outLen = 0 ∧ t.outMem = [])) = true := by decide
theorem test_outAppend : goes (exec (.outAppend [7, 8]) (loopAt 1 65 256 4096 [])) (fun t =>
    decide (t.outMem = [(0, 0x41), (1, 7), (2, 8)] ∧ t.outLen = 3)) = true := by decide
theorem test_outCommit : goes (exec .outCommit State.reset) (fun t => t.outValid) = true := by decide
theorem test_outDiscard : goes (exec .outDiscard { State.reset with outValid := true }) (fun t => !t.outValid) = true := by
  decide

/-! ### The whole run as a function -/

/-- P1. -/
theorem test_run_P1 : runResult true [0x04, 0x10, 0x42, 0x10, 0x01, 0x02] 12 =
    .done [0x41, 0x42, 0x41, 0x42, 0x41, 0x42, 0x41] := by decide +kernel
/-- P3. -/
theorem test_run_P3 : runResult true [0x04, 0x11, 0x00, 0x00, 0x42, 0x01, 0x00] 12 =
    .done [0x41, 0x41, 0x41, 0x04, 0x41, 0x41] := by decide +kernel
/-- V81. -/
theorem test_run_V81 : runResult true [0x12, 0xC0, 0x41] 3 = .fault .configurationError 3 := by decide
/-- V79. -/
theorem test_run_V79 : runResult true [0x41] 7 = .fault .malformedLength 1 := by decide

/-! ### A sound state of the main loop -/

/-- One value at every address from `a` up to below `a + n`. -/
def ramp {α : Type} (v : α) : Nat → Nat → List (Nat × α)
  | _, 0 => []
  | a, n + 1 => (a, v) :: ramp v (a + 1) n

theorem ramp_read {α : Type} (v : α) (n a k : Nat) :
    cellsRead (ramp v a n) k = if a ≤ k ∧ k < a + n then some v else none := by
  induction n generalizing a with
  | zero => simp [ramp]
  | succ n ih =>
    rw [ramp, cellsRead, ih]
    by_cases h : a = k
    · subst h; simp
    · rw [if_neg h]
      exact if_congr (by omega) rfl rfl

theorem ramp_above {α : Type} (v : α) (n a lo : Nat) (h : lo < a) : cellsAbove lo (ramp v a n) = true := by
  induction n generalizing a lo with
  | zero => rfl
  | succ n ih => simp [ramp, cellsAbove, h, ih (a + 1) a (by omega)]

theorem ramp_rising {α : Type} (v : α) (n a : Nat) : cellsRising (ramp v a n) = true := by
  cases n with
  | zero => rfl
  | succ n => exact ramp_above v n (a + 1) a (by omega)

theorem ramp_minimal (v : Str) (n a : Nat) (h : 256 ≤ a) : dictMinimal (ramp v a n) = true := by
  induction n generalizing a with
  | zero => rfl
  | succ n ih =>
    rw [dictMinimal, ramp, List.all_cons, Bool.and_eq_true]
    exact ⟨by simp [dictUnlisted, Nat.not_lt.2 h], ih (a + 1) (by omega)⟩

/-- Step `ci` of a run of `2 * n` equal code words after the code `p`, every entry above 255 "AA". -/
def midRun (p : Code) (m : Size) (ci n : Nat) (c : CodeWord) : State :=
  { State.reset with
    srcOk := true, phase := .loop, fsm := .sFetch
    inLen := 3 * n, inMem := ramp 0x41 0 (3 * n), bi := 3 * n
    nCodes := 2 * n, codes := ramp c 0 (2 * n)
    ci := ci, prevCode := p, dictSize := BitVec.ofNat 13 (schedule m.toNat ci), maxSize := m
    dict := ramp [0x41, 0x41] 256 (schedule m.toNat ci - 256) }

theorem midRun_sound (p : Code) (m : Size) (ci n : Nat) (c : CodeWord) (hm : LegalMax m) (h1 : 1 ≤ ci) (h2 : ci < 2 * n) :
    Sound (midRun p m ci n c) := by
  have hb : 256 ≤ m.toNat ∧ m.toNat ≤ 4096 := by
    obtain ⟨e, he, he', h⟩ := hm
    interval_cases e <;> omega
  have hsch : 256 ≤ schedule m.toNat ci ∧ schedule m.toNat ci ≤ max m.toNat 257 := by
    unfold schedule
    split
    · omega
    · split
      · omega
      · have := Nat.mod_lt (ci - 2) (show m.toNat - 256 > 0 by omega)
        omega
  have hsize : (midRun p m ci n c).dictSize.toNat = schedule m.toNat ci := by
    rw [midRun, BitVec.toNat_ofNat]
    omega
  refine ⟨⟨ramp_rising _ _ _, ramp_rising _ _ _, ?_, rfl⟩, ⟨rfl, fun _ => rfl⟩, ⟨by simp [midRun, State.reset], by
    simp [midRun, State.reset]⟩, fun a ha => ?_, ?_, fun _ i hi => ?_, fun _ => hm, fun _ => ⟨?_, fun k hk => ?_,
    fun k hk hk' => ⟨[0x41, 0x41], ?_, by simp⟩⟩, ?_, trivial, fun _ a ha => ?_⟩
  · simp only [DictCells.wf, midRun, Bool.and_eq_true]
    exact ⟨ramp_rising _ _ _, ramp_minimal _ _ _ (by omega)⟩
  · have : a < 3 * n := ha
    simp [midRun, ramp_read, this]
  · have h3 : codeCount (3 * n) = 2 * n := by
      rw [codeCount, if_neg (by omega)]
      omega
    simp [ExtractOk, midRun, Fsm.extracted, Fsm.decoding, Fsm.inLoop, h3]
  · have : i < 2 * n := hi
    simp [midRun, ramp_read, this]
  · rw [hsize]
    exact ⟨hsch.1, hsch.2, by omega⟩
  · simp [midRun, dictRead, ramp_read, Nat.not_le.2 hk, dictUnlisted, hk]
  · rw [hsize] at hk'
    have : k < 256 + (schedule m.toNat ci - 256) := by omega
    simp [midRun, dictRead, ramp_read, hk, this]
  · simp only [IndexOk, midRun, Fsm.inLoop, true_implies]
    exact ⟨h1, h2, hsize⟩
  · exact absurd ha (Nat.not_lt_zero a)

theorem legal_4096 : LegalMax 4096 := ⟨12, by decide⟩
theorem legal_512 : LegalMax 512 := ⟨9, by decide⟩
theorem legal_256 : LegalMax 256 := ⟨8, by decide⟩

/-- What a step gives, when it is known to give a state with a property. -/
theorem goes_next {r : Res State} {p : State → Bool} (h : goes r p = true) : ∃ t, r = .next t ∧ p t = true := by
  cases r with
  | next t => exact ⟨t, rfl, h⟩
  | fault f => exact absurd h Bool.false_ne_true
  | refused f => exact absurd h Bool.false_ne_true

/-! ### Witnesses: for each statement with hypotheses, a state and operands that meet all of them -/

theorem witness_DecodeOfEncode : (Instr.dSelfrefStatic 0xF 0xFFF).wf = true ∧
    Slot.loopWord.selects (.dSelfrefStatic 0xF 0xFFF) = true := by decide

theorem witness_EncodeOfDecode : Slot.tail1 ≠ .buffer ∧ (∀ j, Slot.tail1 ≠ .bare j) ∧
    decode .tail1 [0x42, 0x43] = .ok (.xTail1 0x4243) := ⟨by decide, fun _ => by simp, by decide⟩

theorem witness_DecodedIsWellFormed : (∀ j, Slot.loopStep 256 ≠ .bare j) ∧
    (∀ size, Slot.loopStep 256 = .loopStep size → 256 ≤ size.toNat ∧ size.toNat ≤ 4096) ∧
    decode (.loopStep 256) [0x01, 0x00] = .ok (.dSelfref 256) :=
  ⟨fun _ => by simp, fun size h => by obtain rfl : 256 = size := by simpa using h
                                      decide, by decide⟩

theorem witness_StaticRangesAgree : 256 ≤ (midRun 0x41 4096 1 1 0x42).dictSize.toNat ∧
    (midRun 0x41 4096 1 1 0x42).dictSize.toNat ≤ 4096 ∧ (midRun 0x41 4096 1 1 0x42).ci ≠ 0 ∧
    ({ midRun 0x41 4096 1 1 0x42 with ci := 0 } : State).ci = 0 := by decide

theorem witness_ExtractOfPack : [0x041#12, 0x042#12].length % 2 = 0 := by decide

theorem witness_WaitingChangesNothing : waiting State.reset = true ∧ State.reset.start = false := by decide

theorem witness_StartIgnoredWhileBusy : ControlOk (midRun 0x41 4096 1 1 0x42) ∧ (midRun 0x41 4096 1 1 0x42).phase.quiet = false ∧
    hostWriteCtrl 3 (midRun 0x41 4096 1 1 0x42) = some (midRun 0x41 4096 1 1 0x42) :=
  ⟨(midRun_sound 0x41 4096 1 1 0x42 legal_4096 (by decide) (by decide)).control, by decide, by decide⟩

/-- A block that is done and one that has just woken, both with a start to act on and the same inputs. -/
theorem witness_RunSharesNothingWithEarlierRun :
    let s : State := { State.reset with start := true }
    let s' : State := { State.reset with start := true, phase := .done, fsm := .sDone, outValid := true, outLen := 1 }
    ControlOk s ∧ ControlOk s' ∧ waiting s = true ∧ waiting s' = true ∧ s.start = true ∧ s'.start = true ∧
      s.dictExp = s'.dictExp ∧ s.srcOk = s'.srcOk ∧ s.inLen = s'.inLen ∧ s.inMem = s'.inMem ∧
      s.freeCount = s'.freeCount ∧ s ≠ s' := by
  refine ⟨⟨rfl, fun _ => rfl⟩, ⟨.inr (.inr (.inr rfl)), fun _ => rfl⟩, ?_⟩
  decide

theorem witness_RunStartEffect : State.reset.phase.quiet = true ∧ State.reset.srcOk = false ∧
    ({ State.reset with srcOk := true } : State).phase.quiet = true ∧
    ({ State.reset with srcOk := true } : State).srcOk = true := by decide

theorem witness_TailReplacesLastWord : 1 ≤ ({ State.reset with nCodes := 1 } : State).nCodes ∧ State.reset.nCodes = 0 := by
  decide

/-- The clauses of R88 at the lengths where they meet: 1, 2, 3, 4 and 5. -/
theorem witness_ExtractCounts : extract [0x41] = none ∧ extract [0x12, 0x34] = some [0x1234] ∧
    extract [0x04, 0x10, 0x42] = some [0x41, 0x42] ∧ extract [0x04, 0x10, 0x42, 0x43] = some [0x41, 0x4243] ∧
    extract [0x04, 0x10, 0x42, 0x04, 0x30] = some [0x41, 0x42] := by decide

theorem witness_DroppedBits : [0x04#8, 0x10#8, 0x42#8] ≠ [] ∧ [0x04#8, 0x10#8, 0x42#8].length % 3 = 0 ∧
    (0x10#8) >>> 4 = (0x1F#8) >>> 4 := by decide

theorem witness_ExtractionComputesExtract :
    let s : State := { State.reset with
      phase := .extract, fsm := .sXsel, inLen := 3, inMem := [(0, 0x04), (1, 0x10), (2, 0x42)] }
    s.fsm = .sXsel ∧ s.phase = .extract ∧ s.bi = 0 ∧ s.nCodes = 0 ∧
      memReadBytes s.inMem 0 s.inLen = some [0x04, 0x10, 0x42] := by decide

theorem witness_LookupReturnsEntry : (255#12).toNat < (midRun 0x41 4096 1 1 0x42).dictSize.toNat ∧
    dictRead (midRun 0x41 4096 1 1 0x42).dict (255#12).toNat = some [0xFF] := by decide

theorem witness_InsertAtHighWaterMark : (loopAt 2 0x41 4095 4096 []).dictSize.toNat ≤ 4095 := by decide

/-- Both clauses, at the values where they meet: one below full, and full. -/
theorem witness_GrowResetsBeforeInsert : (loopAt 2 0x41 4095 4096 []).maxSize.toNat ≤ 4096 ∧
    ¬ (loopAt 2 0x41 4095 4096 []).maxSize.toNat ≤ (loopAt 2 0x41 4095 4096 []).dictSize.toNat ∧
    (loopAt 2 0x41 4096 4096 []).maxSize.toNat ≤ (loopAt 2 0x41 4096 4096 []).dictSize.toNat := by decide

/-- With `M = 256` the first main-loop step is full. -/
theorem witness_ResetStepLeavesOneEntry : ∃ t, Sound (midRun 0x41 256 1 1 0x42) ∧ (midRun 0x41 256 1 1 0x42).fsm = .sFetch ∧
    (midRun 0x41 256 1 1 0x42).maxSize.toNat ≤ (midRun 0x41 256 1 1 0x42).dictSize.toNat ∧
    step (midRun 0x41 256 1 1 0x42) = .next t ∧ t.phase ≠ .fault := by
  obtain ⟨t, ht, hp⟩ := goes_next (r := step (midRun 0x41 256 1 1 0x42)) (p := fun t => decide (t.phase ≠ .fault))
    (by decide)
  exact ⟨t, midRun_sound _ _ _ _ _ legal_256 (by decide) (by decide), rfl, by decide, ht, of_decide_eq_true hp⟩

theorem witness_SmallestDictionary : ∃ t, Sound (midRun 0x41 256 2 2 256) ∧ (midRun 0x41 256 2 2 256).fsm = .sFetch ∧
    (midRun 0x41 256 2 2 256).maxSize = 256 ∧ step (midRun 0x41 256 2 2 256) = .next t ∧ t.phase ≠ .fault := by
  obtain ⟨t, ht, hp⟩ := goes_next (r := step (midRun 0x41 256 2 2 256)) (p := fun t => decide (t.phase ≠ .fault))
    (by decide)
  exact ⟨t, midRun_sound _ _ _ _ _ legal_256 (by decide) (by decide), rfl, rfl, ht, of_decide_eq_true hp⟩

/-- Every form of a seed, and both clauses at 255 and 256. -/
theorem witness_SeedStep :
    let s : State := { State.reset with dictSize := 256 }
    SeedForm 255 s (.dSeed 255) ∧ SeedForm 255 s (.dSeedLegal 255) ∧ SeedForm 256 s (.dDynamic 256) ∧
      s.dictSize = 256 ∧ (∀ k, k < 256 → dictRead s.dict k = some (snap k)) := by
  refine ⟨.inl rfl, .inr (.inl ⟨255, rfl, by decide⟩), .inr (.inr ⟨256, rfl, by decide, rfl⟩), rfl, fun k hk => ?_⟩
  simp [State.reset, dictRead, dictUnlisted, hk]

/-- A stale `prev_code`, the first value that is not live. -/
theorem witness_StalePrevCodeFaults : KnownForm 256 (loopAt 2 257 257 4096 [(256, [65, 65])]) (.dKnown 256) ∧
    SelfrefForm 257 (loopAt 2 257 257 4096 [(256, [65, 65])]) (.dSelfref 257) ∧
    (loopAt 2 257 257 4096 [(256, [65, 65])]).dictSize.toNat ≤ (loopAt 2 257 257 4096 [(256, [65, 65])]).prevCode.toNat :=
  ⟨.inl rfl, .inl rfl, by decide⟩

/-- Every form of a present code word, the highest one, with a dictionary that is not full. -/
theorem witness_KnownStep :
    let s := loopAt 2 66 257 4096 [(256, [65, 66])]
    KnownForm 256 s (.dKnown 256) ∧ KnownForm 256 s (.dDynamic 256) ∧ KnownForm 65 s (.dKnownStatic 65) ∧
      s.prevCode.toNat < s.dictSize.toNat ∧ dictRead s.dict s.prevCode.toNat = some [66] ∧
      (256#16).toNat < s.dictSize.toNat ∧ dictRead s.dict (256#16).toNat = some [65, 66] ∧ s.maxSize.toNat ≤ 4096 := by
  refine ⟨.inl rfl, .inr (.inr ⟨256, rfl, by decide, by decide, by decide⟩), .inr (.inl ⟨65, rfl, by decide⟩), ?_⟩
  decide

/-- The same with a full dictionary. -/
theorem witness_KnownStep_full :
    let s := loopAt 2 66 257 256 [(256, [65, 66])]
    KnownForm 256 s (.dKnown 256) ∧ s.prevCode.toNat < s.dictSize.toNat ∧ dictRead s.dict s.prevCode.toNat = some [66] ∧
      (256#16).toNat < s.dictSize.toNat ∧ dictRead s.dict (256#16).toNat = some [65, 66] ∧ s.maxSize.toNat ≤ 4096 ∧
      full s := by
  refine ⟨.inl rfl, ?_⟩
  decide

/-- Every form of an absent code word, the lowest one. -/
theorem witness_SelfrefStep :
    let s := loopAt 2 66 257 4096 [(256, [65, 66])]
    SelfrefForm 257 s (.dSelfref 257) ∧ SelfrefForm 257 s (.dDynamic 257) ∧ SelfrefForm 4096 s (.dSelfrefStatic 1 0) ∧
      s.prevCode.toNat < s.dictSize.toNat ∧ dictRead s.dict s.prevCode.toNat = some [66] ∧ s.maxSize.toNat ≤ 4096 := by
  refine ⟨.inl rfl, .inr (.inr ⟨257, rfl, by decide, by decide, by decide⟩), .inr (.inl ⟨1, 0, rfl, by decide⟩), ?_⟩
  decide

theorem witness_SelfrefIgnoresTheCode : ∃ t, exec (.dSelfref 257) (loopAt 1 65 256 4096 []) = .next t := by
  obtain ⟨t, ht, _⟩ := goes_next (r := exec (.dSelfref 257) (loopAt 1 65 256 4096 [])) (p := fun _ => true) (by decide)
  exact ⟨t, ht⟩

/-- The hypotheses in the case that faults: `M = 512`, step 257, code word 300 (P6). -/
theorem witness_FaultExactlyAfterResetWithHighCode : ∃ t, Sound (midRun 0x41 512 257 130 300) ∧
    (midRun 0x41 512 257 130 300).fsm = .sFetch ∧ readCode (midRun 0x41 512 257 130 300) 257 = .next 300 ∧
    step (midRun 0x41 512 257 130 300) = .next t ∧ t.fsm = .sFetch ∧ full (midRun 0x41 512 257 130 300) ∧
    present (midRun 0x41 512 257 130 300) 300 := by
  obtain ⟨t, ht, hp⟩ := goes_next (r := step (midRun 0x41 512 257 130 300)) (p := fun t => decide (t.fsm = .sFetch))
    (by decide +kernel)
  refine ⟨t, midRun_sound _ _ _ _ _ legal_512 (by decide) (by decide), rfl, readCode_eq_next.2 ⟨by decide, ?_⟩, ht,
    of_decide_eq_true hp, by decide, by decide⟩
  simp [midRun, ramp_read]

theorem witness_NoOtherFaultInTheLoop : ∃ t, Sound (midRun 0x41 4096 1 1 300) ∧ (midRun 0x41 4096 1 1 300).fsm = .sFetch ∧
    step (midRun 0x41 4096 1 1 300) = .next t ∧ t.phase ≠ .fault := by
  obtain ⟨t, ht, hp⟩ := goes_next (r := step (midRun 0x41 4096 1 1 300)) (p := fun t => decide (t.phase ≠ .fault))
    (by decide)
  exact ⟨t, midRun_sound _ _ _ _ _ legal_4096 (by decide) (by decide), rfl, ht, of_decide_eq_true hp⟩

/-- The clause that faults: the first `prev_code` that is not live. -/
theorem witness_NoOtherFaultInTheLoop_stale : ∃ t, Sound (midRun 257 4096 2 2 65) ∧ (midRun 257 4096 2 2 65).fsm = .sFetch ∧
    step (midRun 257 4096 2 2 65) = .next t ∧
    (midRun 257 4096 2 2 65).dictSize.toNat ≤ (midRun 257 4096 2 2 65).prevCode.toNat := by
  obtain ⟨t, ht, _⟩ := goes_next (r := step (midRun 257 4096 2 2 65)) (p := fun _ => true) (by decide)
  exact ⟨t, midRun_sound _ _ _ _ _ legal_4096 (by decide) (by decide), rfl, ht, by decide⟩

/-- The hypotheses of the statement on the step after a reset step, where nothing faults. -/
theorem witness_FaultExactlyAfterResetWithHighCode_none : ∃ t, Sound (midRun 0x41 256 1 2 256) ∧
    (midRun 0x41 256 1 2 256).fsm = .sFetch ∧ readCode (midRun 0x41 256 1 2 256) 1 = .next 256 ∧
    step (midRun 0x41 256 1 2 256) = .next t ∧ t.fsm = .sFetch := by
  obtain ⟨t, ht, hp⟩ := goes_next (r := step (midRun 0x41 256 1 2 256)) (p := fun t => decide (t.fsm = .sFetch))
    (by decide)
  exact ⟨t, midRun_sound _ _ _ _ _ legal_256 (by decide) (by decide), rfl, rfl, ht, of_decide_eq_true hp⟩

/-- The seed step of the same run. -/
def seedRun (m : Size) (n : Nat) (c : CodeWord) : State :=
  { midRun 0x41 m 1 n c with phase := .seed, fsm := .sSeed, ci := 0, dictSize := 256, dict := [] }

theorem seedRun_sound (m : Size) (n : Nat) (c : CodeWord) (hm : LegalMax m) (hn : 1 ≤ n) : Sound (seedRun m n c) := by
  have h := midRun_sound 0x41 m 1 n c hm (by omega) (by omega)
  exact {
    canonical := ⟨ramp_rising _ _ _, ramp_rising _ _ _, rfl, rfl⟩
    control := ⟨rfl, fun _ => rfl⟩
    status := by simp [StatusOk, seedRun, midRun, State.reset]
    input := h.input
    extract := h.extract
    codes := h.codes
    maxSize := fun _ => hm
    dict := fun _ => by
      refine ⟨⟨Nat.le_refl 256, ?_, by simp [seedRun]⟩, fun k hk => ?_, fun k hk hk' => absurd hk' (Nat.not_lt.2 hk)⟩
      · simp [seedRun]
      · simp [seedRun, dictRead, dictUnlisted, hk]
    index := ⟨rfl, by change 0 < 2 * n; omega, rfl⟩
    work := trivial
    output := fun _ => h.output (by simp [midRun]) }

theorem witness_DecodingComputesDecode : Sound (seedRun 4096 1 0x41) ∧ (seedRun 4096 1 0x41).fsm = .sSeed ∧
    (seedRun 4096 1 0x41).outLen = 0 ∧ (seedRun 4096 1 0x41).nCodes = [0x41#16, 0x41#16].length ∧
    ∀ i, i < [0x41#16, 0x41#16].length → cellsRead (seedRun 4096 1 0x41).codes i = [0x41#16, 0x41#16][i]? :=
  ⟨seedRun_sound _ _ _ legal_4096 (by decide), rfl, rfl, rfl, by decide⟩

theorem witness_OutputLengthBounds : decodeAll 4096 [65, 256] = .ok [65, 65, 65] := by decide

theorem witness_OutputOnlyGrows : ∃ t, (midRun 0x41 4096 1 1 300).fsm.decoding = true ∧ step (midRun 0x41 4096 1 1 300) = .next t ∧
    t.phase ≠ .fault := by
  obtain ⟨t, -, -, ht, hp⟩ := witness_NoOtherFaultInTheLoop
  exact ⟨t, rfl, ht, hp⟩

/-- The clauses of the configuration check at 7, 8, 12 and 13. -/
theorem witness_ConfigurationCheck : (7#4).toNat < 8 ∧ 8 ≤ (8#4).toNat ∧ (8#4).toNat ≤ 12 ∧ 8 ≤ (12#4).toNat ∧
    (12#4).toNat ≤ 12 ∧ 12 < (13#4).toNat := by decide

theorem witness_StatusWord : StatusOk State.reset := by simp [StatusOk, State.reset]

/-- The first address that has no cell, for a read, a code word and an insertion. -/
theorem witness_OutOfRangeAccessStops :
    let s := loopAt 2 66 257 4096 [(256, [65, 66])]
    s.dictSize.toNat ≤ (257#12).toNat ∧ prevPresent s ∧ dictRead s.dict s.prevCode.toNat = some [66] ∧
      s.dictSize.toNat ≤ (257#16).toNat ∧ 4096 ≤ (loopAt 2 66 4096 4096 []).dictSize.toNat := by decide

/-- Cells that exist and that nothing has written, and the first code word beyond the last: a live slot, `CODES[0]`, each
byte of a triple. -/
theorem witness_OutOfRangeAccessStops_unwritten :
    ((256#12).toNat < (loopAt 2 66 257 4096 []).dictSize.toNat ∧ dictRead (loopAt 2 66 257 4096 []).dict (256#12).toNat = none) ∧
    (let s : State := { State.reset with fsm := .sSeed, nCodes := 1 };
      s.fsm = .sSeed ∧ s.ci < s.nCodes ∧ cellsRead s.codes s.ci = none) ∧
    (let s : State := { State.reset with fsm := .sFetch, ci := 1, nCodes := 1 };
      s.fsm = .sFetch ∧ s.nCodes ≤ s.ci) ∧
    (let s : State := { State.reset with fsm := .sXwalk, inLen := 3 };
      s.fsm = .sXwalk ∧ s.bi + 0 < s.inLen ∧ cellsRead s.inMem (s.bi + 0) = none) ∧
    (let s : State := { State.reset with fsm := .sXwalk, inLen := 3, inMem := [(0, 4), (1, 0x10)] };
      s.fsm = .sXwalk ∧ s.bi + 2 < s.inLen ∧ (∀ j, j < 2 → cellsRead s.inMem (s.bi + j) ≠ none) ∧
        cellsRead s.inMem (s.bi + 2) = none) := by decide

/-- Each of the five words of the stream. -/
theorem witness_StepRunsDecodedWord :
    StandsAt { State.reset with fsm := .sXwalk, inLen := 3, inMem := [(0, 0x04), (1, 0x10), (2, 0x42)] } .triple
      [0x04, 0x10, 0x42] ∧
    StandsAt { State.reset with fsm := .sXpair, inLen := 2, inMem := [(0, 0x00), (1, 0x41)] } .pair [0x00, 0x41] ∧
    StandsAt { State.reset with fsm := .sXtail, inLen := 4, inMem := [(0, 4), (1, 0x10), (2, 0x42), (3, 0x43)] } .tail1
      [0x42, 0x43] ∧
    StandsAt { State.reset with fsm := .sSeed, nCodes := 1, codes := [(0, 0x0041)] } .seedWord [0x00, 0x41] ∧
    StandsAt { State.reset with fsm := .sFetch, nCodes := 1, codes := [(0, 0x1000)] } .loopWord [0x10, 0x00] ∧
    decode .triple [0x04, 0x10, 0x42] = .ok (.xTriple 0x041 0x042) ∧ decode .pair [0x00, 0x41] = .ok (.xPair16 0x41) ∧
    decode .tail1 [0x42, 0x43] = .ok (.xTail1 0x4243) ∧ decode .seedWord [0x00, 0x41] = .ok (.dSeedLegal 0x41) ∧
    decode .loopWord [0x10, 0x00] = .ok (.dSelfrefStatic 1 0) ∧ (Instr.dSelfrefStatic 1 0).wf = true := by
  refine ⟨.triple _ _ _ rfl rfl rfl rfl, .pair _ _ rfl rfl rfl, .tail1 _ _ rfl rfl (by decide) rfl rfl,
    .seedWord _ _ rfl rfl, .loopWord _ _ rfl rfl, ?_⟩
  decide

theorem witness_StepRunsSequencedOperation :
    (waiting { State.reset with start := true } = true ∧ ({ State.reset with start := true } : State).start = true) ∧
    (({ State.reset with fsm := .sXsel } : State).fsm = .sXsel ∧ ({ State.reset with fsm := .sXsel } : State).inLen = 0) ∧
    (({ State.reset with fsm := .sXsel, inLen := 1 } : State).fsm = .sXsel ∧
      ({ State.reset with fsm := .sXsel, inLen := 1 } : State).inLen = 1) ∧
    (({ State.reset with fsm := .sXtail, inLen := 5 } : State).fsm = .sXtail ∧
      ({ State.reset with fsm := .sXtail, inLen := 5 } : State).inLen % 3 = 2) ∧
    ({ State.reset with fsm := .sCfg } : State).fsm = .sCfg ∧ ({ State.reset with fsm := .sInit } : State).fsm = .sInit ∧
    (({ State.reset with fsm := .sDone, phase := .loop } : State).fsm = .sDone ∧
      ({ State.reset with fsm := .sDone, phase := .loop } : State).phase ≠ .done) := by decide

/-- The three clauses, at 255 and 256 with `dict_size = 256`. -/
theorem witness_PresenceTestSelects : 256 ≤ (midRun 0x41 4096 1 1 255).dictSize.toNat ∧
    (midRun 0x41 4096 1 1 255).dictSize.toNat ≤ 4096 ∧ readCode (midRun 0x41 4096 1 1 255) 1 = .next 255 ∧
    readCode (midRun 0x41 4096 1 1 256) 1 = .next 256 ∧ readCode (seedRun 4096 1 256) 0 = .next 256 ∧
    (255#16).toNat < (midRun 0x41 4096 1 1 255).dictSize.toNat ∧ (midRun 0x41 4096 1 1 256).dictSize.toNat ≤ (256#16).toNat ∧
    (midRun 0x41 4096 1 1 255).fsm = .sFetch ∧ (midRun 0x41 4096 1 1 255).ci ≠ 0 ∧ (seedRun 4096 1 256).fsm = .sSeed ∧
    (seedRun 4096 1 256).ci = 0 := by
  refine ⟨by decide, by decide, rfl, rfl, rfl, ?_⟩
  decide

theorem witness_FinerMachineRefines : (midRun 0x41 256 1 1 256).fsm = .sFetch ∧ (midRun 0x41 256 1 1 256).phase = .loop ∧
    (midRun 0x41 256 1 1 256).grow = .gIdle ∧ (midRun 0x41 256 1 1 256).ci ≠ 0 ∧ 256 ≤ (midRun 0x41 256 1 1 256).dictSize.toNat ∧
    (midRun 0x41 256 1 1 256).dictSize.toNat ≤ 4096 := by decide

theorem witness_CoreNeverWritesHostState : ∃ t, exec (.xTriple 1 2) State.reset = .next t := ⟨_, rfl⟩

theorem witness_CoreNeverWritesHostState_step : ∃ t, step (midRun 0x41 4096 1 1 300) = .next t := by
  obtain ⟨t, -, -, ht, -⟩ := witness_NoOtherFaultInTheLoop
  exact ⟨t, ht⟩

theorem witness_CanonicalFormKept : ∃ t, Canonical (midRun 0x41 4096 1 1 300) ∧ step (midRun 0x41 4096 1 1 300) = .next t := by
  obtain ⟨t, h, -, ht, -⟩ := witness_NoOtherFaultInTheLoop
  exact ⟨t, h.canonical, ht⟩

theorem witness_CanonicalFormKept_exec : ∃ t, Canonical State.reset ∧ exec (.xTriple 1 2) State.reset = .next t :=
  ⟨_, reset_canonical, rfl⟩

theorem witness_StatusKept : ∃ t, ControlOk (midRun 0x41 4096 1 1 300) ∧ StatusOk (midRun 0x41 4096 1 1 300) ∧
    step (midRun 0x41 4096 1 1 300) = .next t := by
  obtain ⟨t, h, -, ht, -⟩ := witness_NoOtherFaultInTheLoop
  exact ⟨t, h.control, h.status, ht⟩

theorem witness_SoundStepGoesOn : Sound (midRun 0x41 4096 3841 1921 65) :=
  midRun_sound _ _ _ _ _ legal_4096 (by decide) (by decide)

/-- `prev_code` after a seed and after a step of the main loop. -/
theorem witness_PrevCodeLive : ∃ t u, Sound (midRun 0x41 4096 1 1 300) ∧ (midRun 0x41 4096 1 1 300).fsm = .sFetch ∧
    readCode (midRun 0x41 4096 1 1 300) 1 = .next 300 ∧ step (midRun 0x41 4096 1 1 300) = .next t ∧ t.phase ≠ .fault ∧
    Sound (seedRun 4096 1 65) ∧ (seedRun 4096 1 65).fsm = .sSeed ∧ readCode (seedRun 4096 1 65) 0 = .next 65 ∧
    step (seedRun 4096 1 65) = .next u ∧ u.phase ≠ .fault := by
  obtain ⟨t, h, hf, ht, hp⟩ := witness_NoOtherFaultInTheLoop
  obtain ⟨u, hu, hq⟩ := goes_next (r := step (seedRun 4096 1 65)) (p := fun t => decide (t.phase ≠ .fault))
    (by decide)
  exact ⟨t, u, h, hf, rfl, ht, hp, seedRun_sound _ _ _ legal_4096 (by decide), rfl, rfl, hu, of_decide_eq_true hq⟩

theorem witness_RunComputesItsFunction :
    let s : State := { State.reset with
      start := true, srcOk := true, inLen := 3, inMem := [(0, 0x04), (1, 0x10), (2, 0x42)] }
    Canonical s ∧ ControlOk s ∧ waiting s = true ∧ s.start = true ∧
      memReadBytes s.inMem 0 s.inLen = some [0x04, 0x10, 0x42] := by
  refine ⟨⟨rfl, rfl, rfl, rfl⟩, ⟨rfl, fun _ => rfl⟩, ?_⟩
  decide

theorem witness_HostLoadRuns : ∃ t, Canonical State.reset ∧ ControlOk State.reset ∧
    hostLoad [0x04, 0x11, 0x00] 12 State.reset = some t := ⟨_, reset_canonical, ⟨rfl, fun _ => rfl⟩, rfl⟩

theorem witness_HostWritesItsRegisters : State.reset.phase.quiet = true ∧ State.reset.start = false := by decide

/-- Busy, and with a start pending; a write of `CTRL` that keeps SRC_OK and one that does not. -/
theorem witness_HostWritesNothingInARun : (midRun 0x41 4096 1 1 300).phase.quiet = false ∧
    ({ State.reset with start := true } : State).start = true ∧ (1#2).getLsbD 1 = State.reset.srcOk ∧
    (2#2).getLsbD 1 ≠ State.reset.srcOk := by decide

/-- A block in DONE whose output is read, one in FAULT, and one in neither phase. -/
theorem witness_HostReadsItsPort :
    (let s : State := { State.reset with fsm := .sDone, phase := .done, outValid := true, outLen := 2, outMem := [(0, 65), (1, 66)] };
      s.phase = .done ∧ hostReadResult s = some [65, 66]) ∧
    ({ State.reset with phase := .fault } : State).phase = .fault ∧ State.reset.phase ≠ .done ∧
    State.reset.phase ≠ .fault := by decide

/-- R28: bit 0 of `CTRL` is START, bit 1 SRC_OK, by the word written out. -/
theorem test_ctrl_bits :
    (hostWriteCtrl 0b01 State.reset).map (fun t => (t.start, t.srcOk)) = some (true, false) ∧
    (hostWriteCtrl 0b10 State.reset).map (fun t => (t.start, t.srcOk)) = some (false, true) := by decide

end Sys2Proof.Tests
end

section
/-! PROOF. The fields of `T24` and `W16` as bits of the concatenated bytes (spec/30_encoding.md R61, R62). -/

namespace Sys2Proof

/-- The 24 bits of a triple as a number, the byte at the lowest address the most significant (R61). -/
theorem tripleBits_toNat (b0 b1 b2 : Byte) :
    (b0 ++ b1 ++ b2).toNat = b0.toNat * 65536 + b1.toNat * 256 + b2.toNat := by
  simp only [BitVec.toNat_append]
  rw [shift_or_eq_add b1.isLt, shift_or_eq_add b2.isLt]
  omega

/-- R61: `code_A` is bits 23:12 of the triple. -/
theorem codeA_eq_extractLsb' (b0 b1 b2 : Byte) : codeA b0 b1 = (b0 ++ b1 ++ b2).extractLsb' 12 12 := by
  apply BitVec.eq_of_toNat_eq
  rw [codeA_toNat, BitVec.extractLsb'_toNat, Nat.shiftRight_eq_div_pow, tripleBits_toNat]
  omega

/-- R61: `code_B` is bits 11:0 of the triple. -/
theorem codeB_eq_extractLsb' (b0 b1 b2 : Byte) : codeB b1 b2 = (b0 ++ b1 ++ b2).extractLsb' 0 12 := by
  apply BitVec.eq_of_toNat_eq
  rw [codeB_toNat, BitVec.extractLsb'_toNat, Nat.shiftRight_zero, tripleBits_toNat]
  omega

theorem decodeTriple_eq_extractLsb' (b0 b1 b2 : Byte) : decodeTriple b0 b1 b2 =
    .xTriple ((b0 ++ b1 ++ b2).extractLsb' 12 12) ((b0 ++ b1 ++ b2).extractLsb' 0 12) := by
  rw [decodeTriple, codeA_eq_extractLsb' b0 b1 b2, codeB_eq_extractLsb' b0 b1 b2]

/-- Settles O1: each slot's decoder assembles its fields with shifts, and those are the bits of the bytes written one after
the other, as numbers. -/
theorem fieldsAreTheBitsOfTheFormat : Obligations.FieldsAreTheBitsOfTheFormat := by
  refine ⟨fun b0 b1 b2 => ?_, fun hi lo => ?_, fun hi lo => ?_⟩
  · exact congrArg Except.ok (decodeTriple_eq_extractLsb' b0 b1 b2)
  · exact congrArg (fun w => Except.ok (Instr.xPair16 w)) (wide_eq_append hi lo)
  · exact congrArg (fun w => Except.ok (Instr.xTail1 w)) (wide_eq_append hi lo)

end Sys2Proof
end

section
/-! PROOF. The function `extract` on lists (spec/40_code_extractor.md R87, R88): how many code words the complete triples
give, how large those are, and the four cases of the length. -/

namespace Sys2Proof.Machine

/-! ### The codes of the complete triples -/

theorem tripleCodes_short : ∀ {bytes : List Byte}, bytes.length < 3 → tripleCodes bytes = []
  | [], _ | [_], _ | [_, _], _ => rfl

/-- The second case of the recursion of `tripleCodes`. -/
theorem length_lt_of_no_triple {bytes : List Byte}
    (h : ∀ b0 b1 b2 rest, bytes = b0 :: b1 :: b2 :: rest → False) : bytes.length < 3 := by
  match bytes with
  | [] | [_] | [_, _] => simp
  | b0 :: b1 :: b2 :: rest => exact (h b0 b1 b2 rest rfl).elim

/-- Whole triples in front are extracted on their own. -/
theorem tripleCodes_append {done : List Byte} (h : done.length % 3 = 0) (rest : List Byte) :
    tripleCodes (done ++ rest) = tripleCodes done ++ tripleCodes rest := by
  induction done using tripleCodes.induct with
  | case1 b0 b1 b2 done ih =>
    simp only [List.length_cons] at h
    simp [tripleCodes, ih (by omega)]
  | case2 done hno =>
    have hshort := length_lt_of_no_triple hno
    obtain rfl : done = [] := List.length_eq_zero_iff.1 (by omega)
    rfl

theorem tripleCodes_length (bytes : List Byte) : (tripleCodes bytes).length = 2 * (bytes.length / 3) := by
  induction bytes using tripleCodes.induct with
  | case1 b0 b1 b2 rest ih =>
    simp only [tripleCodes, List.length_cons, ih]
    omega
  | case2 bytes hno =>
    have hshort := length_lt_of_no_triple hno
    rw [tripleCodes_short hshort, List.length_nil]
    omega

/-- A code of a triple has 12 bits (R63). -/
theorem zext16_le (c : Code) : (zext16 c).toNat ≤ 4095 := by
  rw [zext16_toNat]
  omega

theorem tripleCodes_le (bytes : List Byte) : ∀ c ∈ tripleCodes bytes, c.toNat ≤ 4095 := by
  induction bytes using tripleCodes.induct with
  | case1 b0 b1 b2 rest ih =>
    simp only [tripleCodes, List.forall_mem_cons]
    exact ⟨zext16_le _, zext16_le _, ih⟩
  | case2 bytes hno => simp [tripleCodes_short (length_lt_of_no_triple hno)]

/-! ### `extract` by the length of the buffer -/

theorem extract_one {bytes : List Byte} (h : bytes.length = 1) : extract bytes = none := by
  simp [extract, h]

theorem extract_pair {bytes : List Byte} (h : bytes.length = 2) : extract bytes = some [tailWord bytes] := by
  simp [extract, h]

theorem extract_tail1 {bytes : List Byte} (h : bytes.length % 3 = 1) (h1 : bytes.length ≠ 1) :
    extract bytes = some ((tripleCodes bytes).dropLast ++ [tailWord bytes]) := by
  simp [extract, h, h1, show bytes.length ≠ 2 by omega]

theorem extract_triples {bytes : List Byte} (h : bytes.length % 3 ≠ 1) (h2 : bytes.length ≠ 2) :
    extract bytes = some (tripleCodes bytes) := by
  simp [extract, h, h2, show bytes.length ≠ 1 by omega]

theorem extract_eq_none {bytes : List Byte} : extract bytes = none ↔ bytes.length = 1 := by
  refine ⟨fun h => ?_, extract_one⟩
  by_contra h1
  by_cases h2 : bytes.length = 2
  · simp [extract_pair h2] at h
  · by_cases h3 : bytes.length % 3 = 1
    · simp [extract_tail1 h3 h1] at h
    · simp [extract_triples h3 h2] at h

theorem length_ne_one_of_extract {bytes : List Byte} {cs : List CodeWord} (h : extract bytes = some cs) :
    bytes.length ≠ 1 := fun h1 => by simp [extract_one h1] at h

theorem extract_length {bytes : List Byte} {cs : List CodeWord} (h : extract bytes = some cs) :
    cs.length = codeCount bytes.length := by
  have h1 := length_ne_one_of_extract h
  by_cases h2 : bytes.length = 2
  · obtain rfl : [tailWord bytes] = cs := Option.some.inj ((extract_pair h2).symm.trans h)
    simp [codeCount, h2]
  · rw [codeCount, if_neg h2]
    by_cases h3 : bytes.length % 3 = 1
    · obtain rfl := Option.some.inj ((extract_tail1 h3 h1).symm.trans h)
      simp only [List.length_append, List.length_dropLast, tripleCodes_length, List.length_singleton]
      omega
    · obtain rfl := Option.some.inj ((extract_triples h3 h2).symm.trans h)
      exact tripleCodes_length bytes

theorem tailWord_pair (b0 b1 : Byte) : tailWord [b0, b1] = b0 ++ b1 := wide_eq_append b0 b1

end Sys2Proof.Machine

namespace Sys2Proof

open Machine

/-- Settles O18: each clause is one case of the length; the words of the triples are codes of 12 bits, and the word of a
one-byte tail is the last. -/
theorem extractCounts : Obligations.ExtractCounts := by
  intro bytes
  refine ⟨extract_eq_none, fun cs h => ⟨extract_length h, fun h2 => ?pair, fun hw => ?whole, fun ht => ?tail⟩⟩
  case pair =>
    obtain ⟨b0, b1, rfl⟩ := List.length_eq_two.1 h2
    rw [extract_pair h2, tailWord_pair] at h
    exact ⟨b0, b1, rfl, (Option.some.inj h).symm⟩
  case whole =>
    rw [extract_triples (by omega) (by omega)] at h
    exact Option.some.inj h ▸ tripleCodes_le bytes
  case tail =>
    have h1 := length_ne_one_of_extract h
    obtain rfl := Option.some.inj ((extract_tail1 ht h1).symm.trans h)
    rw [List.dropLast_concat]
    exact fun c hc => tripleCodes_le bytes c (List.mem_of_mem_dropLast hc)

end Sys2Proof
end

section
/-! PROOF. The extractor computes `extract` (spec/40_code_extractor.md R80 to R87): one equation per step of its states,
an invariant of the walk over the triples, and the run from `S_XSEL` to `S_CFG`. -/

open Sys2Proof.Statements

namespace Sys2Proof.Machine

/-! ### The code words so far -/

/-- `CODES` and `N_CODES` are the list. -/
def CodesAre (cs : List CodeWord) (s : State) : Prop :=
  s.nCodes = cs.length ∧ ∀ i, i < cs.length → cellsRead s.codes i = cs[i]?

theorem codesAre_nil {s : State} (h : s.nCodes = 0) : CodesAre [] s := ⟨h, fun i hi => by simp at hi⟩

theorem CodesAre.congr {cs : List CodeWord} {s t : State} (h : CodesAre cs s) (hn : t.nCodes = s.nCodes)
    (hc : t.codes = s.codes) : CodesAre cs t := by
  unfold CodesAre
  rwa [hn, hc]

theorem codesAre_storePair (w : CodeWord) (s : State) : CodesAre [w] (storePair w s) := by
  refine ⟨rfl, fun i hi => ?_⟩
  obtain rfl : i = 0 := by simpa using hi
  simp

theorem CodesAre.storeTriple {cs : List CodeWord} {s : State} (h : CodesAre cs s) (a b : Code) :
    CodesAre (cs ++ [zext16 a, zext16 b]) (storeTriple a b s) := by
  obtain ⟨hn, hc⟩ := h
  refine ⟨by simp [hn], fun i hi => ?_⟩
  rw [storeTriple_codes, cellsRead_put, cellsRead_put, hn]
  simp only [List.length_append, List.length_cons, List.length_nil] at hi
  rcases Nat.lt_or_ge i cs.length with hlt | hge
  · rw [if_neg (by omega), if_neg (by omega), hc i hlt, List.getElem?_append_left hlt]
  · obtain rfl | rfl : i = cs.length ∨ i = cs.length + 1 := by omega
    · simp
    · simp

theorem CodesAre.storeTail {cs : List CodeWord} {s : State} {n : Nat} (h : CodesAre cs s) (hn : s.nCodes = n + 1)
    (w : CodeWord) : CodesAre (cs.dropLast ++ [w]) (storeTail n w s) := by
  obtain ⟨hl, hc⟩ := h
  have hd : cs.dropLast.length = n := by rw [List.length_dropLast]; omega
  refine ⟨by simp [hn, hd], fun i hi => ?_⟩
  rw [storeTail_codes, cellsRead_put]
  simp only [List.length_append, hd, List.length_singleton] at hi
  rcases Nat.lt_or_ge i n with hlt | hge
  · rw [if_neg (by omega), hc i (by omega), List.getElem?_append_left (by omega), List.getElem?_dropLast,
      if_pos (by omega)]
  · obtain rfl : i = n := by omega
    simp [← hd]

/-! ### What the extractor reads, and what it leaves as it was -/

/-- `IN` holds the buffer. -/
def InputIs (bytes : List Byte) (s : State) : Prop := memReadBytes s.inMem 0 s.inLen = some bytes

section Input

variable {bytes : List Byte} {s : State} (h : InputIs bytes s)
include h

theorem InputIs.length : s.inLen = bytes.length := ((memReadBytes_eq_some _ _ _ _).1 h).1.symm

theorem InputIs.readIn_eq {i : Nat} (hi : i < bytes.length) : readIn s i = .next (bytes.getD i 0) := by
  have hlt : i < s.inLen := by rwa [h.length]
  refine readIn_eq_next.2 ⟨hlt, ?_⟩
  have hr := ((memReadBytes_eq_some _ _ _ _).1 h).2 i hlt
  rw [Nat.zero_add] at hr
  rw [hr, List.getElem?_eq_getElem hi, List.getD_eq_getElem _ _ hi]

theorem InputIs.readPair_eq {i : Nat} (hi : i + 1 < bytes.length) :
    readPair s i = .next (bytes.getD i 0, bytes.getD (i + 1) 0) :=
  readPair_eq_next.2 ⟨h.readIn_eq (by omega), h.readIn_eq hi⟩

/-- The two bytes of `tailWord`. -/
theorem InputIs.readTail_eq (h2 : 2 ≤ bytes.length) : readPair s (s.inLen - 2) =
    .next (bytes.getD (bytes.length - 2) 0, bytes.getD (bytes.length - 1) 0) := by
  rw [h.length, h.readPair_eq (by omega), show bytes.length - 2 + 1 = bytes.length - 1 by omega]

end Input

/-- What the extractor never writes on its way to `S_CFG`: `CFG`, `IN` and the output. -/
def Beside (s t : State) : Prop :=
  t.dictExp = s.dictExp ∧ t.inLen = s.inLen ∧ t.inMem = s.inMem ∧ SameOutput s t

theorem Beside.refl (s : State) : Beside s s := ⟨rfl, rfl, rfl, rfl, rfl⟩

theorem Beside.trans {s t u : State} (h : Beside s t) (h' : Beside t u) : Beside s u := by
  obtain ⟨h1, h2, h3, h4, h5⟩ := h
  obtain ⟨h1', h2', h3', h4', h5'⟩ := h'
  exact ⟨h1'.trans h1, h2'.trans h2, h3'.trans h3, h4'.trans h4, h5'.trans h5⟩

theorem InputIs.beside {bytes : List Byte} {s t : State} (h : InputIs bytes s) (hb : Beside s t) : InputIs bytes t := by
  obtain ⟨-, hl, hm, -⟩ := hb
  unfold InputIs
  rwa [hl, hm]

/-- The extractor is done: the configuration check comes next, and `CODES` is the list. -/
def Extracted (cs : List CodeWord) (s t : State) : Prop := t.fsm = .sCfg ∧ CodesAre cs t ∧ Beside s t

/-! ### One step in each state of the extractor -/

section Steps

variable {s : State}

theorem step_xEmpty (hf : s.fsm = .sXsel) (hn : s.inLen = 0) :
    step s = .next (afterOp .sXsel { consumeStart s with nCodes := 0 }) := by
  have hs : select s = .next (.op .xEmpty) := by simp [select, selectByLength, hf, hn]
  rw [step_of_op hs, hf]
  rfl

theorem step_xOne (hf : s.fsm = .sXsel) (hn : s.inLen = 1) :
    step s = .next (raiseFault .malformedLength 1 (consumeStart s)) := by
  have hs : select s = .next (.op .xOne) := by simp [select, selectByLength, hf, hn]
  rw [step_of_op hs, ← hn]
  exact congrArg Host.Outcome.next (afterOp_fault rfl)

theorem step_toPair (hf : s.fsm = .sXsel) (hn : s.inLen = 2) : step s = .next (consumeStart (enter .sXpair s)) :=
  step_of_move (by simp [select, selectByLength, hf, hn])

theorem step_toWalk (hf : s.fsm = .sXsel) (hn : 3 ≤ s.inLen) : step s = .next (consumeStart (enter .sXwalk s)) := by
  refine step_of_move ?_
  obtain ⟨n, hn⟩ := Nat.exists_eq_add_of_le' hn
  simp [select, selectByLength, hf, hn]

theorem step_xPair {hi lo : Byte} (hf : s.fsm = .sXpair) (hr : readPair s 0 = .next (hi, lo)) :
    step s = .next (afterOp .sXpair (storePair (wide hi lo) (consumeStart s))) := by
  have hs : select s = .next (.op (.xPair16 (wide hi lo))) := by simp [select, selectPair, hf, hr]
  rw [step_of_op hs, hf]
  rfl

theorem step_xTriple {b0 b1 b2 : Byte} (hf : s.fsm = .sXwalk) (h0 : readIn s s.bi = .next b0)
    (h1 : readPair s (s.bi + 1) = .next (b1, b2)) :
    step s = .next (afterOp .sXwalk (storeTriple (codeA b0 b1) (codeB b1 b2) (consumeStart s))) := by
  have hs : select s = .next (.op (decodeTriple b0 b1 b2)) := by simp [select, selectTriple, hf, h0, h1]
  rw [step_of_op hs, hf]
  rfl

theorem step_xTail1 {hi lo : Byte} {n : Nat} (hf : s.fsm = .sXtail) (hm : s.inLen % 3 = 1) (h4 : 4 ≤ s.inLen)
    (hr : readPair s (s.inLen - 2) = .next (hi, lo)) (hn : s.nCodes = n + 1) :
    step s = .next (afterOp .sXtail (storeTail n (wide hi lo) (consumeStart s))) := by
  have hs : select s = .next (.op (.xTail1 (wide hi lo))) := by
    simp [select, selectTail, hf, hm, Nat.not_lt.2 h4, hr]
  have he : exec (.xTail1 (wide hi lo)) (consumeStart s) = .next (storeTail n (wide hi lo) (consumeStart s)) := by
    simp [exec, execXTail1, hn]
  rw [step_of_op hs, he, hf]
  rfl

theorem step_xTail2 (hf : s.fsm = .sXtail) (hm : s.inLen % 3 = 2) :
    step s = .next (afterOp .sXtail (consumeStart s)) := by
  have hs : select s = .next (.op .xTail2) := by simp [select, selectTail, hf, hm]
  rw [step_of_op hs, hf]
  rfl

theorem step_noTail (hf : s.fsm = .sXtail) (hm : s.inLen % 3 = 0) : step s = .next (consumeStart (enter .sCfg s)) :=
  step_of_move (by simp [select, selectTail, hf, hm])

end Steps

/-! ### The walk over the triples -/

/-- The extractor has read the triples of `done` and stands at `rest` (R14, R80); it began in `o`. -/
structure Walking (o : State) (done rest : List Byte) (s : State) : Prop where
  phase : s.phase = .extract
  input : InputIs (done ++ rest) s
  whole : done.length % 3 = 0
  bi : s.bi = done.length
  codes : CodesAre (tripleCodes done) s
  beside : Beside o s

/-- The next state of R156 after a triple: `S_XWALK` while three bytes are left. -/
def walkFsm (rest : List Byte) : Fsm := if 3 ≤ rest.length then .sXwalk else .sXtail

theorem Walking.step {o s : State} {done rest : List Byte} {b0 b1 b2 : Byte}
    (h : Walking o done (b0 :: b1 :: b2 :: rest) s) (hf : s.fsm = .sXwalk) :
    ∃ t, step s = .next t ∧ t.fsm = walkFsm rest ∧ Walking o (done ++ [b0, b1, b2]) rest t := by
  have hlen : s.inLen = done.length + (rest.length + 3) := by simpa using h.input.length
  have h0 : readIn s s.bi = .next b0 := by
    rw [h.bi, h.input.readIn_eq (by simp)]
    simp
  have h1 : readPair s (s.bi + 1) = .next (b1, b2) := by
    rw [h.bi, h.input.readPair_eq (by simp; omega)]
    simp [List.getD_eq_getElem?_getD, Nat.add_assoc]
  set t := storeTriple (codeA b0 b1) (codeB b1 b2) (consumeStart s) with ht
  have hp : t.phase ≠ .fault := by simp [ht, h.phase]
  have hc : CodesAre (tripleCodes (done ++ [b0, b1, b2])) t := by
    rw [tripleCodes_append h.whole]
    exact CodesAre.storeTriple (s := consumeStart s) (h.codes.congr rfl rfl) _ _
  have hleft : t.bi + 3 ≤ t.inLen ↔ 3 ≤ rest.length := by
    rw [ht, storeTriple_bi, storeTriple_inLen, consumeStart_bi, consumeStart_inLen, h.bi, hlen]
    omega
  have hfsm : nextFsm .sXwalk t = walkFsm rest := by simp only [nextFsm, walkFsm, hleft]
  refine ⟨afterOp .sXwalk t, step_xTriple hf h0 h1, (afterOp_fsm hp).trans hfsm, ?_⟩
  have hb : Beside s (afterOp .sXwalk t) := by simp [Beside, SameOutput, ht]
  exact {
    phase := by
      rw [afterOp_phase hp, hfsm, walkFsm]
      split <;> rfl
    input := by simpa using h.input.beside hb
    whole := by simp [h.whole]
    bi := by simp [ht, h.bi]
    codes := hc.congr (afterOp_nCodes t _) (afterOp_codes t _)
    beside := h.beside.trans hb }

/-- R80: the walk ends at the tail with the codes of the complete triples. -/
theorem Walking.run {o s : State} {done rest : List Byte} (h : Walking o done rest s) (hf : s.fsm = .sXwalk)
    (h3 : 3 ≤ rest.length) :
    ∃ t done' rest', stepRun (rest.length / 3) s = .next t ∧ t.fsm = .sXtail ∧ done' ++ rest' = done ++ rest ∧
      rest'.length < 3 ∧ Walking o done' rest' t := by
  induction rest using tripleCodes.induct generalizing s done with
  | case1 b0 b1 b2 rest ih =>
    obtain ⟨t, ht, hft, hw⟩ := h.step hf
    have hsteps : (b0 :: b1 :: b2 :: rest).length / 3 = rest.length / 3 + 1 := by
      simp only [List.length_cons]
      omega
    rw [hsteps, stepRun_succ ht]
    by_cases hr : 3 ≤ rest.length
    · obtain ⟨u, done', rest', hu, hfu, happ, hlt, hw'⟩ := ih hw (by rw [hft, walkFsm, if_pos hr]) hr
      exact ⟨u, done', rest', hu, hfu, by simp [happ], hlt, hw'⟩
    · refine ⟨t, _, rest, ?_, by rw [hft, walkFsm, if_neg hr], by simp, by omega, hw⟩
      rw [Nat.div_eq_of_lt (by omega), stepRun_zero]
  | case2 rest hno => exact absurd h3 (Nat.not_le.2 (length_lt_of_no_triple hno))

/-! ### The ends of the extraction -/

/-- A transition without an operation to the configuration check. -/
theorem Extracted.of_enter {cs : List CodeWord} {s : State} (h : CodesAre cs s) :
    Extracted cs s (consumeStart (enter .sCfg s)) :=
  ⟨rfl, h.congr rfl rfl, Beside.refl s⟩

/-- An operation of the extractor that ends it leads to the configuration check (R156). -/
theorem Extracted.afterOp {cs : List CodeWord} {s t : State} {f : Fsm} (hf : nextFsm f t = .sCfg)
    (hp : t.phase = .extract) (h : CodesAre cs t) (hb : Beside s t) : Extracted cs s (afterOp f t) := by
  refine ⟨?_, h.congr (by simp) (by simp), hb.trans (by simp [Beside, SameOutput])⟩
  rw [afterOp_fsm (by simp [hp]), hf]

/-- `S_XTAIL` (R80, R84, R85). -/
theorem tail_step {bytes : List Byte} {s : State} (hf : s.fsm = .sXtail) (hp : s.phase = .extract) (hin : InputIs bytes s)
    (h3 : 3 ≤ bytes.length) (hc : CodesAre (tripleCodes bytes) s) :
    ∃ cs t, extract bytes = some cs ∧ step s = .next t ∧ Extracted cs s t := by
  have hlen := hin.length
  obtain hm | hm | hm : bytes.length % 3 = 0 ∨ bytes.length % 3 = 1 ∨ bytes.length % 3 = 2 := by omega
  · exact ⟨_, _, extract_triples (by omega) (by omega), step_noTail hf (by omega), .of_enter hc⟩
  · obtain ⟨n, hn⟩ : ∃ n, s.nCodes = n + 1 := by
      refine Nat.exists_eq_succ_of_ne_zero ?_
      rw [hc.1, tripleCodes_length]
      omega
    refine ⟨_, _, extract_tail1 hm (by omega), step_xTail1 hf (by omega) (by omega) (hin.readTail_eq (by omega)) hn, ?_⟩
    exact .afterOp rfl hp (.storeTail (s := consumeStart s) (hc.congr rfl rfl) hn _) ⟨rfl, rfl, rfl, rfl, rfl⟩
  · exact ⟨_, _, extract_triples (by omega) (by omega), step_xTail2 hf (by omega),
      .afterOp rfl hp (hc.congr rfl rfl) ⟨rfl, rfl, rfl, rfl, rfl⟩⟩

/-! ### The run of the extractor -/

section Run

variable {bytes : List Byte} {s : State} (hf : s.fsm = .sXsel) (hin : InputIs bytes s)
include hf hin

/-- R82: the empty buffer. -/
theorem empty_run (hp : s.phase = .extract) (h0 : bytes.length = 0) :
    ∃ t, stepRun 1 s = .next t ∧ extract bytes = some [] ∧ Extracted [] s t := by
  obtain rfl := List.length_eq_zero_iff.1 h0
  exact ⟨_, stepRun_succ (step_xEmpty hf hin.length) 0, rfl,
    .afterOp rfl hp (codesAre_nil rfl) ⟨rfl, rfl, rfl, rfl, rfl⟩⟩

/-- R83: the 2-byte buffer. -/
theorem pair_run (h2 : bytes.length = 2) :
    ∃ t, stepRun 2 s = .next t ∧ extract bytes = some [tailWord bytes] ∧ Extracted [tailWord bytes] s t := by
  set t := consumeStart (enter .sXpair s)
  have hin' : InputIs bytes t := hin
  have hlen : t.inLen = 2 := hin'.length.trans h2
  have hr := hin'.readTail_eq (by omega)
  rw [hlen] at hr
  refine ⟨_, (stepRun_succ (step_toPair hf hlen) 1).trans (stepRun_succ (step_xPair rfl hr) 0), extract_pair h2, ?_⟩
  exact .afterOp rfl rfl (codesAre_storePair _ _) ⟨rfl, rfl, rfl, rfl, rfl⟩

/-- R80, R81: three bytes or more. -/
theorem walk_run (hbi : s.bi = 0) (hn : s.nCodes = 0) (h3 : 3 ≤ bytes.length) :
    ∃ cs t, stepRun (bytes.length / 3 + 2) s = .next t ∧ extract bytes = some cs ∧ Extracted cs s t := by
  have hstart : Walking s [] bytes (consumeStart (enter .sXwalk s)) :=
    { phase := rfl, input := hin, whole := rfl, bi := hbi, codes := codesAre_nil hn, beside := Beside.refl s }
  obtain ⟨t, done, rest, ht, hft, happ, hlt, hw⟩ := hstart.run rfl h3
  rw [List.nil_append] at happ
  subst happ
  have hc : CodesAre (tripleCodes (done ++ rest)) t := by
    rw [tripleCodes_append hw.whole, tripleCodes_short hlt, List.append_nil]
    exact hw.codes
  obtain ⟨cs, u, hcs, hu, hfu, hcu, hbu⟩ := tail_step hft hw.phase hw.input h3 hc
  refine ⟨cs, u, ?_, hcs, hfu, hcu, hw.beside.trans hbu⟩
  rw [stepRun_succ (step_toWalk hf (hin.length ▸ h3)), stepRun_add ht, stepRun_succ hu, stepRun_zero]

/-- R87: from the choice by length the extractor reaches the configuration check with the code words of `extract`. -/
theorem extraction_run (hp : s.phase = .extract) (hbi : s.bi = 0) (hn : s.nCodes = 0) (h1 : bytes.length ≠ 1) :
    ∃ n cs t, n ≤ s.inLen / 3 + 2 ∧ stepRun n s = .next t ∧ extract bytes = some cs ∧ Extracted cs s t := by
  obtain h0 | h2 | h3 : bytes.length = 0 ∨ bytes.length = 2 ∨ 3 ≤ bytes.length := by omega
  · obtain ⟨t, ht⟩ := empty_run hf hin hp h0
    exact ⟨1, _, t, by omega, ht⟩
  · obtain ⟨t, ht⟩ := pair_run hf hin h2
    exact ⟨2, _, t, by omega, ht⟩
  · obtain ⟨cs, t, ht⟩ := walk_run hf hin hbi hn h3
    exact ⟨_, cs, t, by rw [hin.length], ht⟩

end Run

end Sys2Proof.Machine

namespace Sys2Proof

open Machine

/-- Settles O20: by the length of the buffer; the walk over the triples keeps `CODES` equal to the codes of the triples
read so far. -/
theorem extractionComputesExtract : Obligations.ExtractionComputesExtract := by
  intro s bytes hf hp hbi hn hin
  by_cases h1 : bytes.length = 1
  · refine ⟨1, _, stepRun_succ (step_xOne hf ((InputIs.length hin).trans h1)) 0, ?_⟩
    rw [extract_one h1]
    exact ⟨rfl, rfl, rfl⟩
  · obtain ⟨n, cs, t, -, ht, hcs, hft, ⟨hlen, hcodes⟩, -⟩ := extraction_run hf hin hp hbi hn h1
    refine ⟨n, t, ht, ?_⟩
    rw [hcs]
    exact ⟨hft, hlen, hcodes⟩

end Sys2Proof
end

section
/-! PROOF. An insertion at the high-water mark, the reset before it, and the main-loop step that takes it
(spec/41_dictionary_engine.md R106, R108, R111). -/

open Sys2Proof.Statements

namespace Sys2Proof.Machine

/-! ### Insertions -/

theorem inserted_insertAt {s : State} (e : Str) (h : s.dictSize.toNat < 4096) :
    Inserted s.dictSize.toNat e s (insertAt e s) :=
  ⟨dictRead_write_same _ _ _, fun _ hk => dictRead_write_other _ _ hk.symm, insertAt_size e s h, rfl⟩

/-- R108: the insertion after the reset is one into the dictionary before it, at the key of `insertKey`. -/
theorem inserted_insertAt_growFrom {s : State} (e : Str) (h : insertKey s.maxSize.toNat s.dictSize.toNat < 4096) :
    Inserted (insertKey s.maxSize.toNat s.dictSize.toNat) e s (insertAt e (growFrom s)) := by
  rw [← growFrom_size] at h ⊢
  obtain ⟨hentry, hother, hsize, hkey⟩ := inserted_insertAt e h
  rw [growFrom_dict] at hother
  exact ⟨hentry, hother, hsize, hkey⟩

theorem insertKey_full {m size : Nat} (h : m ≤ size) : insertKey m size = 256 := if_pos h

section LoopEnds

variable {s : State} (hk : insertKey s.maxSize.toNat s.dictSize.toNat < 4096)
include hk

theorem inserted_knownEnd (c : CodeWord) (p e : Str) (b : Byte) :
    Inserted (insertKey s.maxSize.toNat s.dictSize.toNat) (p ++ [b]) s (knownEnd c p e b s) :=
  inserted_insertAt_growFrom (p ++ [b]) hk

theorem inserted_selfrefEnd (t : Str) :
    Inserted (insertKey s.maxSize.toNat s.dictSize.toNat) t s (selfrefEnd t s) :=
  inserted_insertAt_growFrom t hk

end LoopEnds

/-- R123, R124: a main-loop step that does not fault inserts `new_entry`. -/
theorem LoopEnd.inserted {s u : State} (h : LoopEnd s u) (hu : u.phase ≠ .fault) :
    Inserted (insertKey s.maxSize.toNat s.dictSize.toNat) u.work.newEntry s u := by
  cases h with
  | stale c h => exact absurd (raiseFault_phase _ _ _) hu
  | known c p r b h hp hc he hk =>
    rw [knownEnd_newEntry]
    exact inserted_knownEnd (s := writeEntry .prevEntry p (latchWord c s)) hk c p (b :: r) b
  | selfref c r b h hp hk =>
    rw [selfrefEnd_newEntry]
    exact inserted_selfrefEnd (s := writeEntry .prevEntry (b :: r) (latchWord c s)) hk ((b :: r) ++ [b])

/-! ### A main-loop step -/

/-- Where a sound main-loop step is in the code stream (R15, R110). -/
theorem Sound.fetch_index {s : State} (h : Sound s) (hf : s.fsm = .sFetch) :
    1 ≤ s.ci ∧ s.ci < s.nCodes ∧ s.dictSize.toNat = schedule s.maxSize.toNat s.ci := by
  simpa [IndexOk, hf, Fsm.inLoop] using h.index

/-- R76 at `ci >= 1`: whatever operation the code word selects ends a main-loop step. -/
theorem exec_decodeLoopWord_end {c : CodeWord} {s u : State} (hci : s.ci ≠ 0)
    (h : exec (decodeLoopWord c) s = .next u) : LoopEnd s u := by
  unfold decodeLoopWord at h
  split at h
  · exact prelude_caseA_end h
  · split at h
    · exact loopStep_end ((if_neg hci).symm.trans h)
    · exact prelude_caseB_end h

/-- A step from `S_FETCH` is a main-loop step and the transition of R156 after it. -/
theorem step_sFetch_end {s t : State} (hf : s.fsm = .sFetch) (hci : s.ci ≠ 0) (h : step s = .next t) :
    ∃ u, LoopEnd (consumeStart s) u ∧ t = afterOp .sFetch u := by
  obtain ⟨a, hs, ha⟩ := step_eq_next.1 h
  simp only [select, hf, andThen_eq_next, Host.Outcome.next.injEq] at hs
  obtain ⟨c, -, rfl⟩ := hs
  obtain ⟨u, hu, ht⟩ := andThen_eq_next.1 ha
  rw [hf, Host.Outcome.next.injEq] at ht
  exact ⟨u, exec_decodeLoopWord_end hci hu, ht.symm⟩

/-- "A `raise` at any point replaces the rest by RUN.FAULT" (R152): the transition keeps a fault. -/
theorem phase_ne_fault_of_afterOp {f : Fsm} {u : State} (h : (afterOp f u).phase ≠ .fault) : u.phase ≠ .fault :=
  fun hu => h (by rw [afterOp_fault hu, hu])

/-- R106, R108 for a whole step: a main-loop step that does not fault inserts `new_entry` at the key of `insertKey`. -/
theorem step_sFetch_inserted {s t : State} (hs : Sound s) (hf : s.fsm = .sFetch) (h : step s = .next t)
    (ht : t.phase ≠ .fault) : Inserted (insertKey s.maxSize.toNat s.dictSize.toNat) t.work.newEntry s t := by
  obtain ⟨hci, -, -⟩ := hs.fetch_index hf
  obtain ⟨u, hu, rfl⟩ := step_sFetch_end hf (Nat.ne_of_gt hci) h
  have hins := hu.inserted (phase_ne_fault_of_afterOp ht)
  simpa [Inserted] using hins

end Sys2Proof.Machine

namespace Sys2Proof

open Machine

/-- Settles O24: below 4096 the insertion goes on, into the slot whose number is `dict_size`. -/
theorem insertAtHighWaterMark : Obligations.InsertAtHighWaterMark := by
  intro s e h
  have hlt : s.dictSize.toNat < 4096 := by omega
  refine ⟨insertAt e s, dictInsert_eq_next.2 ⟨hlt, rfl⟩, inserted_insertAt e hlt, ?_⟩
  simp [SameHost, SameStatus, SameExtractor, SameIndex, SameOutput, SameControl]

/-- Settles O25: the insertion is the one of R106 into the state after the reset, which changes `dict_size` alone. -/
theorem growResetsBeforeInsert : Obligations.GrowResetsBeforeInsert := by
  intro s e hm
  refine ⟨insertAt e (growFrom s), dictGrow_eq e s hm, inserted_insertAt_growFrom e (insertKey_lt hm), ?_⟩
  simp [SameHost, SameStatus, SameExtractor, SameIndex, SameOutput, SameControl]

/-- Settles O26: the step inserts `new_entry`, and the key of a full dictionary is 256. -/
theorem resetStepLeavesOneEntry : Obligations.ResetStepLeavesOneEntry := by
  intro s t hs hf hfull hstep ht
  have hins := step_sFetch_inserted hs hf hstep ht
  rw [insertKey_full hfull] at hins
  obtain ⟨hentry, -, hsize, hkey⟩ := hins
  refine ⟨BitVec.eq_of_toNat_eq hsize, BitVec.eq_of_toNat_eq hkey, hentry, fun c hc => ?_⟩
  rw [present, hsize]
  omega

end Sys2Proof
end

section
/-! PROOF. The main-loop step of a live `prev_code` (spec/42_decoder_sequence.md R123, R124): which case an operation
performs, and what Case A and Case B have in common. -/

open Sys2Proof.Statements

namespace Sys2Proof.Machine

/-! ### Which case an operation performs -/

theorem exec_of_knownForm {c : CodeWord} {s : State} {i : Instr} (h : KnownForm c s i) :
    exec i s = prelude c (caseA c) s := by
  obtain rfl | ⟨b, rfl, rfl⟩ | ⟨d, rfl, rfl, hci, hc⟩ := h
  · rfl
  · rfl
  · simp only [exec, execDDynamic, loopStep, if_neg hci, if_pos hc]

theorem exec_of_selfrefForm {c : CodeWord} {s : State} {i : Instr} (h : SelfrefForm c s i) :
    exec i s = prelude c caseB s := by
  obtain rfl | ⟨h, d, rfl, rfl⟩ | ⟨d, rfl, rfl, hci, hc⟩ := h
  · rfl
  · rfl
  · simp only [exec, execDDynamic, loopStep, if_neg hci, if_neg hc]

/-! ### What the two cases have in common -/

/-- `OUT` grows by what is written at its end, and by nothing else (R142). -/
theorem appended_of_write {e : Str} {s t : State} (hm : t.outMem = memWriteBytes s.outMem s.outLen e)
    (hl : t.outLen = s.outLen + e.length) : Appended e s t := by
  refine ⟨hl, fun j hj => ?_, fun a ha => ?_⟩
  · rw [hm, memWriteBytes_inside _ _ _ _ hj]
  · rw [hm]
    rcases ha with ha | ha
    · exact memWriteBytes_below _ _ _ _ ha
    · exact memWriteBytes_above _ _ _ _ ha

/-- A main-loop step that does not fault (R129): `e` is appended, `new` is inserted at the key of R108, `ci` counts up,
and only `prev_code` and the working registers change besides. -/
structure LoopStepped (e new : Str) (s t : State) : Prop where
  outMem : t.outMem = memWriteBytes s.outMem s.outLen e
  outLen : t.outLen = s.outLen + e.length
  inserted : Inserted (insertKey s.maxSize.toNat s.dictSize.toNat) new s t
  ci : t.ci = s.ci + 1
  maxSize : t.maxSize = s.maxSize
  host : SameHost s t
  status : SameStatus s t
  extractor : SameExtractor s t
  control : SameControl s t

theorem LoopStepped.appended {e new : Str} {s t : State} (h : LoopStepped e new s t) : Appended e s t :=
  appended_of_write h.outMem h.outLen

theorem loopStepped_knownEnd {s : State} (hm : s.maxSize.toNat ≤ 4096) (c : CodeWord) (p e : Str) (b : Byte) :
    LoopStepped e (p ++ [b]) s (knownEnd c p e b (writeEntry .prevEntry p (latchWord c s))) where
  outMem := by simp
  outLen := by simp
  inserted := inserted_knownEnd (s := writeEntry .prevEntry p (latchWord c s)) (insertKey_lt hm) c p e b
  ci := by simp
  maxSize := by simp
  host := by simp [SameHost]
  status := by simp [SameStatus]
  extractor := by simp [SameExtractor]
  control := by simp [SameControl]

theorem loopStepped_selfrefEnd {s : State} (hm : s.maxSize.toNat ≤ 4096) (c : CodeWord) (p t : Str) :
    LoopStepped t t s (selfrefEnd t (writeEntry .prevEntry p (latchWord c s))) where
  outMem := by simp
  outLen := by simp
  inserted := inserted_selfrefEnd (s := writeEntry .prevEntry p (latchWord c s)) (insertKey_lt hm) t
  ci := by simp
  maxSize := by simp
  host := by simp [SameHost]
  status := by simp [SameStatus]
  extractor := by simp [SameExtractor]
  control := by simp [SameControl]

/-! ### The step of each case -/

/-- R123: both lookups are made in the dictionary from before the reset. -/
theorem exec_known {s : State} {c : CodeWord} {i : Instr} {p r : Str} {b : Byte} (hi : KnownForm c s i)
    (hp : s.prevCode.toNat < s.dictSize.toNat) (hpe : dictRead s.dict s.prevCode.toNat = some p)
    (hc : c.toNat < s.dictSize.toNat) (hce : dictRead s.dict c.toNat = some (b :: r)) (hm : s.maxSize.toNat ≤ 4096) :
    exec i s = .next (knownEnd c p (b :: r) b (writeEntry .prevEntry p (latchWord c s))) := by
  rw [exec_of_knownForm hi, prelude_live hp hpe]
  exact caseA_eq (s := writeEntry .prevEntry p (latchWord c s)) hc hce hm

theorem exec_selfref {s : State} {c : CodeWord} {i : Instr} {r : Str} {b : Byte} (hi : SelfrefForm c s i)
    (hp : s.prevCode.toNat < s.dictSize.toNat) (hpe : dictRead s.dict s.prevCode.toNat = some (b :: r))
    (hm : s.maxSize.toNat ≤ 4096) :
    exec i s = .next (selfrefEnd ((b :: r) ++ [b]) (writeEntry .prevEntry (b :: r) (latchWord c s))) := by
  rw [exec_of_selfrefForm hi, prelude_live hp hpe]
  exact caseB_eq (s := writeEntry .prevEntry (b :: r) (latchWord c s)) rfl hm

end Sys2Proof.Machine

namespace Sys2Proof

open Machine

/-- Settles O30: every form performs the prelude and Case A. -/
theorem knownStep : Obligations.KnownStep := by
  intro s c i p r b hi hp hpe hc hce hm
  have h := loopStepped_knownEnd hm c p (b :: r) b
  refine ⟨_, exec_known hi hp hpe hc hce hm, h.appended, h.inserted, knownEnd_prevCode .., h.ci, ?_, h.maxSize,
    h.host, h.status, h.extractor, h.control⟩
  simp [knownEnd, Work.setEntry]

/-- Settles O31: every form performs the prelude and Case B. -/
theorem selfrefStep : Obligations.SelfrefStep := by
  intro s c i r b hi hp hpe hm
  have h := loopStepped_selfrefEnd hm c (b :: r) ((b :: r) ++ [b])
  refine ⟨_, exec_selfref hi hp hpe hm, h.appended, h.inserted,
    selfrefEnd_prevCode _ (writeEntry .prevEntry (b :: r) (latchWord c s)) (insertKey_lt hm), h.ci, ?_, h.maxSize,
    h.host, h.status, h.extractor, h.control⟩
  simp [selfrefEnd, Work.setEntry]

end Sys2Proof
end

section
/-! PROOF. The decoder computes `decode` (spec/42_decoder_sequence.md R126): the reference's list of live entries as a
view of `DICT`, one main-loop step against one equation of `decodeRest`, the induction over the code words that are
left, and the seed step. -/

open Sys2Proof.Statements

namespace Sys2Proof.Machine

/-! ### The live entries as a list -/

/-- The first slots of `DICT` hold the strings of the list. -/
def Holds (l : List Str) (d : DictCells) : Prop := ∀ k, k < l.length → dictRead d k = l[k]?

theorem Holds.kept {l : List Str} {key : Nat} {e : Str} {s t : State} (h : Holds l s.dict) (hl : l.length ≤ key)
    (hi : Inserted key e s t) : Holds l t.dict := by
  obtain ⟨-, hother, -⟩ := hi
  intro k hk
  rw [hother k (by omega), h k hk]

theorem Holds.inserted {l : List Str} {e : Str} {s t : State} (h : Holds l s.dict) (hi : Inserted l.length e s t) :
    Holds (l ++ [e]) t.dict := by
  have ⟨hentry, _⟩ := hi
  intro k hk
  rw [List.length_append, List.length_singleton] at hk
  rcases Nat.lt_or_ge k l.length with hlt | hge
  · rw [h.kept le_rfl hi k hlt, List.getElem?_append_left hlt]
  · obtain rfl : k = l.length := by omega
    rw [List.getElem?_concat_length]
    exact hentry

theorem initialDict_length : initialDict.length = 256 := by simp [initialDict]

theorem initialDict_getElem? {k : Nat} (h : k < 256) : initialDict[k]? = some (snap k) := by simp [initialDict, h]

theorem ne_nil_of_mem_initialDict {t : Str} (h : t ∈ initialDict) : t ≠ [] := by
  obtain ⟨k, -, rfl⟩ := List.mem_map.1 h
  simp [snap]

/-- The list is the live part of the dictionary; its identity entries are there also after a reset (R32, R101). -/
structure DictIs (entries : List Str) (s : State) : Prop where
  size : s.dictSize.toNat = entries.length
  low : 256 ≤ entries.length
  high : entries.length ≤ 4096
  holds : Holds entries s.dict
  initial : Holds initialDict s.dict
  nonempty : ∀ t ∈ entries, t ≠ []

/-- The dictionary of the seed step (R100). -/
theorem dictIs_initialDict {s : State} (hd : DictOk s) (h : s.dictSize.toNat = 256) : DictIs initialDict s := by
  obtain ⟨-, hid, -⟩ := hd
  have hh : Holds initialDict s.dict := fun k hk => by
    rw [initialDict_length] at hk
    rw [hid k hk, initialDict_getElem? hk]
  exact {
    size := h.trans initialDict_length.symm
    low := initialDict_length.ge
    high := by simp [initialDict_length]
    holds := hh
    initial := hh
    nonempty := fun _ => ne_nil_of_mem_initialDict }

theorem growBase_length (m : Nat) (entries : List Str) : (growBase m entries).length = insertKey m entries.length := by
  unfold growBase insertKey
  split
  · exact initialDict_length
  · rfl

section Entries

variable {entries : List Str} {s : State} (h : DictIs entries s)
include h

/-- The view is a matter of `DICT` and `dict_size` alone. -/
theorem DictIs.congr {t : State} (hd : t.dict = s.dict) (hs : t.dictSize = s.dictSize) : DictIs entries t where
  size := by rw [hs, h.size]
  low := h.low
  high := h.high
  holds := hd ▸ h.holds
  initial := hd ▸ h.initial
  nonempty := h.nonempty

/-- A live key is one that the list has. -/
theorem DictIs.live {k : Nat} {t : Str} (hk : entries[k]? = some t) :
    k < s.dictSize.toNat ∧ dictRead s.dict k = some t := by
  obtain ⟨hlt, -⟩ := List.getElem?_eq_some_iff.1 hk
  exact ⟨h.size ▸ hlt, (h.holds k hlt).trans hk⟩

theorem DictIs.absent {k : Nat} (hk : entries[k]? = none) : s.dictSize.toNat ≤ k :=
  h.size ▸ List.getElem?_eq_none_iff.1 hk

theorem DictIs.exists_cons {k : Nat} {t : Str} (hk : entries[k]? = some t) : ∃ b r, t = b :: r :=
  List.exists_cons_of_ne_nil (h.nonempty t (List.mem_of_getElem? hk))

/-- What a reset leaves, or the whole dictionary without one. -/
theorem DictIs.holds_growBase (m : Nat) : Holds (growBase m entries) s.dict := by
  unfold growBase
  split
  · exact h.initial
  · exact h.holds

theorem DictIs.ne_nil_of_mem_growBase (m : Nat) : ∀ t ∈ growBase m entries, t ≠ [] := by
  unfold growBase
  split
  · exact fun _ => ne_nil_of_mem_initialDict
  · exact h.nonempty

/-- R108 on the list: the insertion appends to what the reset leaves. -/
theorem DictIs.inserted {t : State} {e : Str} (hm : s.maxSize.toNat ≤ 4096) (he : e ≠ [])
    (hi : Inserted (insertKey s.maxSize.toNat s.dictSize.toNat) e s t) :
    DictIs (growBase s.maxSize.toNat entries ++ [e]) t := by
  rw [h.size, ← growBase_length] at hi
  have hlen := growBase_length s.maxSize.toNat entries
  have hlt : insertKey s.maxSize.toNat entries.length < 4096 := insertKey_lt hm
  have hge : 256 ≤ insertKey s.maxSize.toNat entries.length := by
    have hlow := h.low
    unfold insertKey
    split <;> omega
  have ⟨_, _, hsize, _⟩ := hi
  exact {
    size := by rw [hsize, List.length_append, List.length_singleton]
    low := by rw [List.length_append]; omega
    high := by rw [List.length_append, List.length_singleton]; omega
    holds := (h.holds_growBase _).inserted hi
    initial := h.initial.kept (by rw [initialDict_length]; omega) hi
    nonempty := by
      rw [List.forall_mem_append, List.forall_mem_singleton]
      exact ⟨h.ne_nil_of_mem_growBase _, he⟩ }

end Entries

/-! ### The decoder between two code words -/

/-- A decoder step is done: `M`, the list of entries, `prev`, the output and the code words that are left in the
reference are those of the state. -/
structure Decoded (m : Nat) (entries : List Str) (prev : Nat) (out : Str) (cs : List CodeWord) (s : State) : Prop where
  phase : s.phase ≠ .fault
  ci : s.ci ≠ 0
  nCodes : s.nCodes = s.ci + cs.length
  codes : ∀ i, i < cs.length → cellsRead s.codes (s.ci + i) = cs[i]?
  maxSize : s.maxSize.toNat = m
  legal : m ≤ 4096
  dict : DictIs entries s
  prevCode : s.prevCode.toNat = prev
  output : memReadBytes s.outMem 0 s.outLen = some out

/-- The same at the next code word, or at the end of the run (R125). -/
structure AtWord (m : Nat) (entries : List Str) (prev : Nat) (out : Str) (cs : List CodeWord) (s : State) : Prop
    extends Decoded m entries prev out cs s where
  fsm : s.fsm = if cs = [] then .sDone else .sFetch

/-- What the block shows when it has computed the result of `decode`. -/
def Answers (r : Except (RunFault × Nat) Str) (t : State) : Prop :=
  match r with
  | .ok out => t.fsm = .sDone ∧ t.phase ≠ .fault ∧ memReadBytes t.outMem 0 t.outLen = some out
  | .error e => t.phase = .fault ∧ t.faultCode = some e.1 ∧ t.faultInfo = BitVec.ofNat 16 e.2

theorem answers_raiseFault (f : RunFault) (info : Nat) (s : State) : Answers (.error (f, info)) (raiseFault f info s) :=
  ⟨rfl, rfl, rfl⟩

/-- Within `k` steps the block shows the result. -/
def Computes (k : Nat) (s : State) (r : Except (RunFault × Nat) Str) : Prop :=
  ∃ n t, n ≤ k ∧ stepRun n s = .next t ∧ Answers r t

theorem Answers.computes {r : Except (RunFault × Nat) Str} {s : State} (h : Answers r s) (k : Nat) : Computes k s r :=
  ⟨0, s, Nat.zero_le k, rfl, h⟩

theorem Computes.of_step {k : Nat} {s t : State} {r : Except (RunFault × Nat) Str} (hs : step s = .next t)
    (h : Computes k t r) : Computes (k + 1) s r := by
  obtain ⟨n, u, hn, hu, ha⟩ := h
  exact ⟨n + 1, u, Nat.succ_le_succ hn, (stepRun_succ hs n).trans hu, ha⟩

/-- "`prev_code <- c[11:0]`" (R121, R123) keeps the value of a code word of 12 bits. -/
theorem toNat_setWidth_code {c : CodeWord} (h : c.toNat < 4096) : (c.setWidth 12).toNat = c.toNat := by
  rw [BitVec.toNat_setWidth]
  exact Nat.mod_eq_of_lt h

section Decoded

variable {m : Nat} {entries : List Str} {prev : Nat} {out : Str} {s : State}

theorem Decoded.afterWord_eq {cs : List CodeWord} (h : Decoded m entries prev out cs s) :
    afterWord s = if cs = [] then .sDone else .sFetch := by
  have hiff : s.ci = s.nCodes ↔ cs = [] := by
    rw [h.nCodes, ← List.length_eq_zero_iff]
    omega
  simp only [afterWord, hiff]

/-- The transition of R156 after a decoder step, of the seed or of the main loop. -/
theorem Decoded.afterOp {cs : List CodeWord} (h : Decoded m entries prev out cs s) {f : Fsm}
    (hf : nextFsm f s = afterWord s) (hi : nextCi f s = s.ci) : AtWord m entries prev out cs (afterOp f s) := by
  have hci : (Machine.afterOp f s).ci = s.ci := (afterOp_ci h.phase).trans hi
  exact {
    phase := by
      rw [afterOp_phase h.phase, hf, afterWord]
      split
      · exact h.phase
      · exact nofun
    ci := hci ▸ h.ci
    nCodes := by rw [afterOp_nCodes, hci, h.nCodes]
    codes := by simpa only [afterOp_codes, hci] using h.codes
    maxSize := by rw [afterOp_maxSize, h.maxSize]
    legal := h.legal
    dict := h.dict.congr (afterOp_dict s f) (afterOp_dictSize s f)
    prevCode := by rw [afterOp_prevCode, h.prevCode]
    output := by rw [afterOp_outMem, afterOp_outLen, h.output]
    fsm := by rw [afterOp_fsm h.phase, hf, h.afterWord_eq] }

variable {c : CodeWord} {cs : List CodeWord}

theorem Decoded.readCode_eq (h : Decoded m entries prev out (c :: cs) s) : readCode s s.ci = .next c := by
  have hc := h.codes 0 (by simp)
  exact readCode_eq_next.2 ⟨by rw [h.nCodes, List.length_cons]; omega, by simpa using hc⟩

/-- A main-loop step that does not fault takes the reference to its next arguments. -/
theorem Decoded.loopStepped (h : Decoded m entries prev out (c :: cs) s) {e new : Str} {u : State} {prev' : Nat}
    (hu : LoopStepped e new (consumeStart s) u) (hne : new ≠ []) (hprev : u.prevCode.toNat = prev') :
    Decoded m (growBase m entries ++ [new]) prev' (out ++ e) cs u := by
  obtain ⟨hphase, -⟩ := hu.status
  obtain ⟨-, hn, hcodes⟩ := hu.extractor
  have hci : u.ci = s.ci + 1 := hu.ci
  exact {
    phase := hphase ▸ h.phase
    ci := by omega
    nCodes := by rw [hn, hci, consumeStart_nCodes, h.nCodes, List.length_cons]; omega
    codes := fun i hi => by
      have hcell := h.codes (i + 1) (by simpa using hi)
      rw [hcodes, hci, Nat.add_assoc, Nat.add_comm 1 i]
      simpa using hcell
    maxSize := by rw [hu.maxSize, consumeStart_maxSize, h.maxSize]
    legal := h.legal
    dict := by
      have hd := h.dict.inserted (h.maxSize.trans_le h.legal) hne hu.inserted
      rwa [h.maxSize] at hd
    prevCode := hprev
    output := by
      rw [hu.outMem, hu.outLen]
      exact memReadBytes_append _ _ _ _ h.output }

end Decoded

/-! ### A step of `S_FETCH` -/

theorem knownForm_decodeLoopWord {c : CodeWord} {s : State} (hci : s.ci ≠ 0) (hs : s.dictSize.toNat ≤ 4096)
    (hc : present s c) : KnownForm c s (decodeLoopWord c) := by
  unfold decodeLoopWord
  split
  · next hlow => exact .inr (.inl ⟨_, rfl, (lowWord_setWidth hlow).symm⟩)
  · rw [if_pos (hc.trans_le hs)]
    exact .inr (.inr ⟨_, rfl, (zext16_setWidth (hc.trans_le hs)).symm, hci, hc⟩)

theorem selfrefForm_decodeLoopWord {c : CodeWord} {s : State} (hci : s.ci ≠ 0) (hs : 256 ≤ s.dictSize.toNat)
    (hc : ¬ present s c) : SelfrefForm c s (decodeLoopWord c) := by
  unfold decodeLoopWord
  rw [if_neg (show ¬ c.toNat < 256 by omega)]
  split
  · next hmid => exact .inr (.inr ⟨_, rfl, (zext16_setWidth hmid).symm, hci, hc⟩)
  · exact .inr (.inl ⟨_, _, rfl, (highWord_split c).symm⟩)

theorem step_loopWord {c : CodeWord} {s u : State} (hf : s.fsm = .sFetch) (hr : readCode s s.ci = .next c)
    (he : exec (decodeLoopWord c) (consumeStart s) = .next u) : step s = .next (afterOp .sFetch u) := by
  have hs : select s = .next (.op (decodeLoopWord c)) := by simp [select, hf, hr]
  rw [step_of_op hs, he, hf]
  rfl

section Fetch

variable {m : Nat} {entries : List Str} {prev : Nat} {out : Str} {c : CodeWord} {cs : List CodeWord} {s : State}
  (h : AtWord m entries prev out (c :: cs) s)
include h

theorem AtWord.fsm_eq_sFetch : s.fsm = .sFetch := by simpa using h.fsm

theorem AtWord.knownForm {e : Str} (hc : entries[c.toNat]? = some e) :
    KnownForm c (consumeStart s) (decodeLoopWord c) :=
  knownForm_decodeLoopWord h.ci (h.dict.size.trans_le h.dict.high) (h.dict.live hc).1

theorem AtWord.selfrefForm (hc : entries[c.toNat]? = none) : SelfrefForm c (consumeStart s) (decodeLoopWord c) :=
  selfrefForm_decodeLoopWord h.ci (h.dict.low.trans_eq h.dict.size.symm) (Nat.not_lt.2 (h.dict.absent hc))

/-- R122: an absent `prev` faults, whatever the code word. -/
theorem AtWord.step_stale (hp : entries[prev]? = none) :
    ∃ t, step s = .next t ∧ Answers (.error (.internalInconsistency, prev)) t := by
  obtain ⟨body, hbody⟩ : ∃ body, exec (decodeLoopWord c) (consumeStart s) = prelude c body (consumeStart s) := by
    cases hc : entries[c.toNat]? with
    | none => exact ⟨_, exec_of_selfrefForm (h.selfrefForm hc)⟩
    | some e => exact ⟨_, exec_of_knownForm (h.knownForm hc)⟩
  have hstale : (consumeStart s).dictSize.toNat ≤ (consumeStart s).prevCode.toNat :=
    (h.dict.absent hp).trans_eq h.prevCode.symm
  refine ⟨_, step_loopWord h.fsm_eq_sFetch h.readCode_eq (hbody.trans (prelude_stale hstale c body)), ?_⟩
  rw [afterOp_fault rfl, consumeStart_prevCode, h.prevCode]
  exact answers_raiseFault _ _ _

/-- The key `prev` of the reference is live and has its string in `DICT`. -/
theorem AtWord.prev_live {p : Str} (hp : entries[prev]? = some p) :
    s.prevCode.toNat < s.dictSize.toNat ∧ dictRead s.dict s.prevCode.toNat = some p := by
  rw [h.prevCode]
  exact h.dict.live hp

/-- R123. -/
theorem AtWord.step_known {p e : Str} (hp : entries[prev]? = some p) (hc : entries[c.toNat]? = some e) :
    ∃ t, step s = .next t ∧ AtWord m (growBase m entries ++ [p ++ e.take 1]) c.toNat (out ++ e) cs t := by
  obtain ⟨b, r, rfl⟩ := h.dict.exists_cons hc
  obtain ⟨hplive, hpe⟩ := h.prev_live hp
  obtain ⟨hclive, hce⟩ := h.dict.live hc
  have hm : s.maxSize.toNat ≤ 4096 := h.maxSize.trans_le h.legal
  have hlt : c.toNat < 4096 := hclive.trans_le (h.dict.size.trans_le h.dict.high)
  have hd := h.loopStepped (loopStepped_knownEnd (s := consumeStart s) hm c p (b :: r) b) (by simp)
    (toNat_setWidth_code hlt)
  exact ⟨_, step_loopWord h.fsm_eq_sFetch h.readCode_eq (exec_known (h.knownForm hc) hplive hpe hclive hce hm),
    hd.afterOp rfl rfl⟩

/-- R124. -/
theorem AtWord.step_selfref {p : Str} (hp : entries[prev]? = some p) (hc : entries[c.toNat]? = none) :
    ∃ t, step s = .next t ∧
      AtWord m (growBase m entries ++ [p ++ p.take 1]) (growBase m entries).length (out ++ (p ++ p.take 1)) cs t := by
  obtain ⟨b, r, rfl⟩ := h.dict.exists_cons hp
  obtain ⟨hplive, hpe⟩ := h.prev_live hp
  have hm : s.maxSize.toNat ≤ 4096 := h.maxSize.trans_le h.legal
  have hkey : insertKey s.maxSize.toNat s.dictSize.toNat = (growBase m entries).length := by
    rw [growBase_length, h.maxSize, h.dict.size]
  have hprev := selfrefEnd_prevCode ((b :: r) ++ [b])
    (writeEntry .prevEntry (b :: r) (latchWord c (consumeStart s))) (insertKey_lt hm)
  have hd := h.loopStepped (loopStepped_selfrefEnd (s := consumeStart s) hm c (b :: r) ((b :: r) ++ [b])) (by simp)
    (hprev.trans hkey)
  exact ⟨_, step_loopWord h.fsm_eq_sFetch h.readCode_eq (exec_selfref (h.selfrefForm hc) hplive hpe hm),
    hd.afterOp rfl rfl⟩

end Fetch

/-! ### The main loop -/

/-- R126 from a code word of the main loop on, by induction over the code words that are left. -/
theorem AtWord.computes {m : Nat} {entries : List Str} {prev : Nat} {out : Str} {cs : List CodeWord} {s : State}
    (h : AtWord m entries prev out cs s) : Computes cs.length s (decodeRest m entries prev out cs) := by
  induction cs generalizing entries prev out s with
  | nil =>
    have ha : Answers (.ok out) s := ⟨h.fsm, h.phase, h.output⟩
    exact ha.computes 0
  | cons c cs ih =>
    cases hp : entries[prev]? with
    | none =>
      obtain ⟨t, ht, ha⟩ := h.step_stale hp
      simpa only [decodeRest, hp] using .of_step ht (ha.computes cs.length)
    | some p =>
      cases hc : entries[c.toNat]? with
      | none =>
        obtain ⟨t, ht, hw⟩ := h.step_selfref hp hc
        simpa only [decodeRest, hp, hc] using .of_step ht (ih hw)
      | some e =>
        obtain ⟨t, ht, hw⟩ := h.step_known hp hc
        simpa only [decodeRest, hp, hc] using .of_step ht (ih hw)

/-! ### The seed step -/

/-- R76 at `ci = 0`: whatever operation the code word selects performs the seed step. -/
theorem exec_decodeSeedWord {c : CodeWord} {s : State} (hci : s.ci = 0) : exec (decodeSeedWord c) s = seedStep c s := by
  unfold decodeSeedWord
  split
  · next hlow => rw [exec, execDSeedLegal, lowWord_setWidth hlow]
  · split
    · next hmid => rw [exec, execDDynamic, if_pos hci, zext16_setWidth hmid]
    · rfl

theorem step_seedWord {c : CodeWord} {s u : State} (hf : s.fsm = .sSeed) (hci : s.ci = 0)
    (hr : readCode s s.ci = .next c) (he : seedStep c (consumeStart s) = .next u) :
    step s = .next (afterOp .sSeed u) := by
  have hs : select s = .next (.op (decodeSeedWord c)) := by simp [select, hf, hr]
  rw [step_of_op hs, exec_decodeSeedWord (s := consumeStart s) hci, he, hf]
  rfl

/-- Where the decoder of a sound state begins (R15, R100). -/
theorem Sound.seed_index {s : State} (h : Sound s) (hf : s.fsm = .sSeed) :
    s.ci = 0 ∧ 0 < s.nCodes ∧ s.dictSize.toNat = 256 := by
  simpa [IndexOk, hf] using h.index

theorem LegalMax.le {m : Size} (h : LegalMax m) : m.toNat ≤ 4096 := by
  obtain ⟨e, -, he, hm⟩ := h
  exact hm.trans_le (Nat.pow_le_pow_right (by omega) he)

section Seed

variable {s : State} {c : CodeWord} {cs : List CodeWord} (hs : Sound s) (hf : s.fsm = .sSeed)
  (hc : ∀ i, i < (c :: cs).length → cellsRead s.codes i = (c :: cs)[i]?)
include hs hf hc

theorem readCode_seedWord : readCode s s.ci = .next c := by
  obtain ⟨hci, hpos, -⟩ := hs.seed_index hf
  rw [hci]
  exact readCode_eq_next.2 ⟨hpos, hc 0 (by simp)⟩

/-- R121: a seed that is no initial key faults. -/
theorem seed_step_absent (h : 256 ≤ c.toNat) :
    ∃ t, step s = .next t ∧ Answers (.error (.unknownSeedCode, c.toNat)) t := by
  obtain ⟨hci, -, hsize⟩ := hs.seed_index hf
  refine ⟨_, step_seedWord hf hci (readCode_seedWord hs hf hc) (seedStep_absent (hsize.trans_le h)), ?_⟩
  rw [afterOp_fault rfl]
  exact answers_raiseFault _ _ _

/-- R121: an initial key is appended, and the main loop begins with it. -/
theorem seed_step_present (hn : s.nCodes = (c :: cs).length) (ho : s.outLen = 0) (h : c.toNat < 256) :
    ∃ t, step s = .next t ∧ AtWord s.maxSize.toNat initialDict c.toNat (snap c.toNat) cs t := by
  obtain ⟨hci, -, hsize⟩ := hs.seed_index hf
  have hdec : s.fsm.decoding = true := by rw [hf]; rfl
  have hd := dictIs_initialDict (hs.dict hdec) hsize
  obtain ⟨hlive, hread⟩ := hd.live (initialDict_getElem? h)
  obtain ⟨hphase, -⟩ := hs.control
  rw [hf] at hphase
  have hu : Decoded s.maxSize.toNat initialDict c.toNat (snap c.toNat) cs
      (seedFinish c (snap c.toNat) (latchWord c (consumeStart s))) := {
    phase := by simp [show s.phase = .seed from hphase]
    ci := Nat.one_ne_zero
    nCodes := by simp [hn, Nat.add_comm]
    codes := fun i hi => by
      have hcell := hc (i + 1) (by simpa using hi)
      simpa [Nat.add_comm 1 i] using hcell
    maxSize := rfl
    legal := (hs.maxSize (.inr hdec)).le
    dict := hd.congr rfl rfl
    prevCode := toNat_setWidth_code (by omega)
    output := by
      simp only [seedFinish_outMem, seedFinish_outLen, latchWord_outMem, latchWord_outLen, consumeStart_outMem,
        consumeStart_outLen, ho]
      exact memReadBytes_append _ 0 [] _ rfl }
  exact ⟨_, step_seedWord hf hci (readCode_seedWord hs hf hc) (seedStep_present hlive hread), hu.afterOp rfl rfl⟩

/-- R126: one step for the seed and at most one for every code word after it. -/
theorem seed_computes (hn : s.nCodes = (c :: cs).length) (ho : s.outLen = 0) :
    Computes (c :: cs).length s (decodeAll s.maxSize.toNat (c :: cs)) := by
  rcases Nat.lt_or_ge c.toNat 256 with h | h
  · obtain ⟨t, ht, hw⟩ := seed_step_present hs hf hc hn ho h
    rw [decodeAll, if_neg (Nat.not_le.2 h)]
    exact .of_step ht hw.computes
  · obtain ⟨t, ht, ha⟩ := seed_step_absent hs hf hc h
    rw [decodeAll, if_pos h]
    exact .of_step ht (ha.computes cs.length)

end Seed

end Sys2Proof.Machine

namespace Sys2Proof

open Machine

/-- Settles O35: the seed step begins a simulation of `decodeRest` by the main loop, one step for one code word. -/
theorem decodingComputesDecode : Obligations.DecodingComputesDecode := by
  intro s cs hs hf ho hn hc
  obtain ⟨-, hpos, -⟩ := hs.seed_index hf
  cases cs with
  | nil => exact absurd hn hpos.ne'
  | cons c cs => exact seed_computes hs hf hc hn ho

end Sys2Proof
end

section
/-! PROOF. Run control (spec/44_run_control.md): the configuration check (R153), and the fault entry it takes
(spec/60_exceptions.md R180). -/

open Sys2Proof.Statements

namespace Sys2Proof.Machine

/-- R180: the fault entry, whatever the phase was before it. -/
theorem raised_raiseFault (f : RunFault) (info : Nat) (s : State) (p : Phase) :
    Raised f info s (raiseFault f info { s with phase := p }) := by
  simp [Raised, SameHost, SameExtractor, SameDict, SameIndex]

/-- Latching `M` (R153) writes no register but `M`. -/
theorem latchMax_frame (e : BitVec 4) (s : State) :
    (latchMax e s).dictSize = s.dictSize ∧ (latchMax e s).dict = s.dict ∧ SameHost s (latchMax e s) ∧
      SameStatus s (latchMax e s) ∧ SameExtractor s (latchMax e s) ∧ SameIndex s (latchMax e s) ∧
      SameOutput s (latchMax e s) ∧ SameControl s (latchMax e s) ∧ (latchMax e s).work = s.work := by
  simp [SameHost, SameStatus, SameExtractor, SameIndex, SameOutput, SameControl]

end Sys2Proof.Machine

namespace Sys2Proof

open Machine

/-- Settles O40: a legal exponent latches `2 ^ e` in the 13 bits of `M`, any other one enters the fault. -/
theorem configurationCheck : Obligations.ConfigurationCheck := by
  intro s
  constructor
  · intro hlow hhigh
    obtain ⟨hsize, hdict, hhost, ⟨hphase, hcode, hvalid, hinfo⟩, hextractor, hindex, houtput, hcontrol, hwork⟩ :=
      latchMax_frame s.dictExp { s with phase := .config }
    exact ⟨_, execRunCfgchk_legal hlow hhigh, latchMax_toNat hhigh _, hphase, hcode, hvalid, hinfo, hsize, hdict, hhost,
      hextractor, hindex, houtput, hcontrol, hwork⟩
  · intro hbad
    exact ⟨_, execRunCfgchk_illegal hbad, raised_raiseFault _ _ s .config, rfl⟩

end Sys2Proof
end

section
/-! PROOF. Faults (spec/60_exceptions.md): the operation RUN.FAULT (R180). -/

open Sys2Proof.Statements

namespace Sys2Proof.Machine

/-- RUN.FAULT always completes, with the fault entry. -/
theorem exec_runFault (f : RunFault) (info : Nat) (s : State) :
    exec (.runFault f info) s = .next (raiseFault f info s) := rfl

/-- "`FAULT_INFO <- info[15:0]`" (R180) as a number. -/
theorem raiseFault_faultInfo_toNat (f : RunFault) (info : Nat) (s : State) :
    (raiseFault f info s).faultInfo.toNat = info % 65536 := by
  rw [raiseFault_faultInfo, BitVec.toNat_ofNat]

end Sys2Proof.Machine

namespace Sys2Proof

open Machine

/-- Settles O42: RUN.FAULT is the fault entry, which writes no working register and keeps 16 bits of the info. -/
theorem faultEntry : Obligations.FaultEntry := by
  intro s f info
  exact ⟨raiseFault f info s, exec_runFault f info s, raised_raiseFault f info s s.phase, raiseFault_work s f info,
    raiseFault_faultInfo_toNat f info s⟩

end Sys2Proof
end

section
/-! PROOF. The dictionary reset (spec/70_reset_and_hazards.md R203, spec/41_dictionary_engine.md R107). -/

namespace Sys2Proof.Machine

/-- DICT.RESET always completes, with the reset of a full dictionary: the one DICT.GROW makes before it inserts. -/
theorem exec_dictReset (s : State) : exec .dictReset s = .next (dictReset s) := rfl

/-- "It changes `dict_size` only" (R203). -/
theorem dictReset_eq (s : State) : dictReset s = { s with dictSize := 256 } := rfl

end Sys2Proof.Machine

namespace Sys2Proof

open Machine

/-- Settles O23: DICT.RESET is the dictionary reset, and that writes `dict_size` alone. -/
theorem resetWritesOnlySize : Obligations.ResetWritesOnlySize := by
  intro s
  rw [exec_dictReset, dictReset_eq]

end Sys2Proof
end

section
/-! PROOF. Encoding and decoding (spec/30_encoding.md, spec/20_memory.md section 2): the round trips, the well-formedness of
what is decoded, and the two decoders of a code word. -/

namespace Sys2Proof

open Machine Laws

theorem roundTrip (i : Instr) : RoundTrip.Statement i := by
  cases i with
  | runStart => exact RoundTrip.runStart
  | runCfgchk => exact RoundTrip.runCfgchk
  | runDone => exact RoundTrip.runDone
  | runFault f info => exact RoundTrip.runFault f info
  | xEmpty => exact RoundTrip.xEmpty
  | xOne => exact RoundTrip.xOne
  | xPair16 w => exact RoundTrip.xPair16 w
  | xTriple a b => exact RoundTrip.xTriple a b
  | xTail1 w => exact RoundTrip.xTail1 w
  | xTail2 => exact RoundTrip.xTail2
  | dictInit => exact RoundTrip.dictInit
  | dictLookup dst k => exact RoundTrip.dictLookup dst k
  | dictReset => exact RoundTrip.dictReset
  | dictInsert t => exact RoundTrip.dictInsert t
  | dictGrow t => exact RoundTrip.dictGrow t
  | dSeed c => exact RoundTrip.dSeed c
  | dKnown c => exact RoundTrip.dKnown c
  | dSelfref c => exact RoundTrip.dSelfref c
  | dSeedLegal c => exact RoundTrip.dSeedLegal c
  | dKnownStatic c => exact RoundTrip.dKnownStatic c
  | dSelfrefStatic h c => exact RoundTrip.dSelfrefStatic h c
  | dDynamic c => exact RoundTrip.dDynamic c
  | outClear => exact RoundTrip.outClear
  | outAppend t => exact RoundTrip.outAppend t
  | outCommit => exact RoundTrip.outCommit
  | outDiscard => exact RoundTrip.outDiscard

/-- Settles O3: one round trip per constructor. -/
theorem decodeOfEncode : Obligations.DecodeOfEncode := fun slot i hw hs => roundTrip i slot hw hs

/-! ### The bits of the code stream (R42) -/

/-- The 24 bits of a triple are those of its two codes. -/
theorem codeBits_triple (b0 b1 b2 : Byte) :
    Statements.codeBits [zext16 (codeA b0 b1), zext16 (codeB b1 b2)] = Statements.byteBits [b0, b1, b2] := by
  simp [Statements.codeBits, Statements.byteBits, List.range_succ, zext16, codeA, codeB]

theorem codeBits_append (cs ds : List CodeWord) :
    Statements.codeBits (cs ++ ds) = Statements.codeBits cs ++ Statements.codeBits ds := List.flatMap_append

theorem byteBits_append (bs ds : List Byte) :
    Statements.byteBits (bs ++ ds) = Statements.byteBits bs ++ Statements.byteBits ds := List.flatMap_append

/-- Settles O2: triple by triple. -/
theorem codesAreTheBitStream : Obligations.CodesAreTheBitStream := by
  intro bytes
  induction bytes using tripleCodes.induct with
  | case1 b0 b1 b2 rest ih =>
    have hlen : 3 * ((b0 :: b1 :: b2 :: rest).length / 3) = 3 * (rest.length / 3) + 3 := by
      simp only [List.length_cons]
      omega
    rw [hlen]
    have hcodes := codeBits_append [zext16 (codeA b0 b1), zext16 (codeB b1 b2)] (tripleCodes rest)
    have hbytes := byteBits_append [b0, b1, b2] (rest.take (3 * (rest.length / 3)))
    exact hcodes.trans ((congrArg₂ (· ++ ·) (codeBits_triple b0 b1 b2) ih).trans hbytes.symm)
  | case2 bytes hno =>
    have hshort := length_lt_of_no_triple hno
    rw [tripleCodes_short hshort, Nat.div_eq_of_lt hshort]
    rfl

/-! ### From bytes to an operation and back -/

theorem encode_decodeTriple (b0 b1 b2 : Byte) : encode (decodeTriple b0 b1 b2) = [b0, b1, b2] := by
  rw [decodeTriple, encode, packHigh_code, packMid_code, packLow_code]

theorem encode_decodeLoopStep (size : Size) (c : CodeWord) : encode (decodeLoopStep size c) = wordBytes c := by
  unfold decodeLoopStep
  split <;> rfl

/-- Settles O4: by the clauses of the decoder, each undone by the encoder's clause of the same format. -/
theorem encodeOfDecode : Obligations.EncodeOfDecode := by
  intro slot bytes i hbuffer hbare h
  unfold decode at h
  split at h
  case h_1 | h_2 | h_3 | h_4 => exact absurd rfl hbuffer
  case h_5 => exact Except.ok.inj h ▸ encode_decodeTriple _ _ _
  case h_6 | h_7 => exact Except.ok.inj h ▸ wordBytes_wide _ _
  case h_8 => exact Except.ok.inj h ▸ (encode_decodeSeedWord _).trans (wordBytes_wide _ _)
  case h_9 => exact Except.ok.inj h ▸ (encode_decodeLoopWord _).trans (wordBytes_wide _ _)
  case h_10 => exact Except.ok.inj h ▸ wordBytes_wide _ _
  case h_11 => exact Except.ok.inj h ▸ (encode_decodeLoopStep _ _).trans (wordBytes_wide _ _)
  case h_12 => exact absurd rfl (hbare _)
  case h_13 => cases h

/-! ### What is decoded is well-formed -/

theorem wf_dDynamic {c : CodeWord} (hlow : ¬ c.toNat < 256) (hmid : c.toNat < 4096) :
    (Instr.dDynamic (c.setWidth 12)).wf = true := by
  simp only [Instr.wf, decide_eq_true_eq, toNat_setWidth_code hmid]
  omega

theorem wf_decodeSeedWord (c : CodeWord) : (decodeSeedWord c).wf = true := by
  unfold decodeSeedWord
  split
  · rfl
  · next hlow =>
    split
    · next hmid => exact wf_dDynamic hlow hmid
    · rfl

theorem wf_decodeLoopWord (c : CodeWord) : (decodeLoopWord c).wf = true := by
  unfold decodeLoopWord
  split
  · rfl
  · next hlow =>
    split
    · next hmid => exact wf_dDynamic hlow hmid
    · next hhigh =>
      have hne : (c >>> 12).setWidth 4 ≠ 0 := fun h => by
        have hz := congrArg BitVec.toNat h
        simp only [BitVec.toNat_setWidth, BitVec.toNat_ushiftRight, Nat.shiftRight_eq_div_pow,
          BitVec.ofNat_eq_ofNat, BitVec.toNat_ofNat] at hz
        omega
      simpa [Instr.wf] using hne

theorem wf_decodeLoopStep {size : Size} (hlow : 256 ≤ size.toNat) (hhigh : size.toNat ≤ 4096) (c : CodeWord) :
    (decodeLoopStep size c).wf = true := by
  unfold decodeLoopStep
  split <;> simp only [Instr.wf, decide_eq_true_eq] <;> omega

/-- Settles O5: by the clauses of the decoder; a code word's range gives the check of its operand. -/
theorem decodedIsWellFormed : Obligations.DecodedIsWellFormed := by
  intro slot bytes i hbare hsize h
  unfold decode at h
  split at h
  case h_1 | h_2 | h_3 | h_4 | h_5 | h_6 | h_7 | h_10 => exact Except.ok.inj h ▸ rfl
  case h_8 => exact Except.ok.inj h ▸ wf_decodeSeedWord _
  case h_9 => exact Except.ok.inj h ▸ wf_decodeLoopWord _
  case h_11 size hi lo =>
    obtain ⟨hlow, hhigh⟩ := hsize size rfl
    exact Except.ok.inj h ▸ wf_decodeLoopStep hlow hhigh _
  case h_12 => exact absurd rfl (hbare _)
  case h_13 => cases h

/-! ### The two decoders of a code word -/

/-- At `ci >= 1` the static ranges of R76 do what the presence test of R75 selects. -/
theorem exec_decodeLoopWord {c : CodeWord} {s : State} (hci : s.ci ≠ 0) (hlow : 256 ≤ s.dictSize.toNat)
    (hhigh : s.dictSize.toNat ≤ 4096) : exec (decodeLoopWord c) s = exec (decodeLoopStep s.dictSize c) s := by
  by_cases hc : present s c
  · rw [exec_of_knownForm (knownForm_decodeLoopWord hci hhigh hc), decodeLoopStep, if_pos hc]
    rfl
  · rw [exec_of_selfrefForm (selfrefForm_decodeLoopWord hci hlow hc), decodeLoopStep, if_neg hc]
    rfl

/-- Settles O6: both sides perform the prelude and the same case, or the seed step. -/
theorem staticRangesAgree : Obligations.StaticRangesAgree :=
  fun _ _ hlow hhigh => ⟨fun hci => exec_decodeLoopWord hci hlow hhigh, fun hci => exec_decodeSeedWord hci⟩

/-- Settles O7: each word by its clause of the decoder. -/
theorem wordsDecode : Obligations.WordsDecode := by
  unfold Obligations.WordsDecode
  decide

/-! ### Packed streams (R72) and the bits that are dropped (R85, R216) -/

theorem pack_length {codes : List Code} (h : codes.length % 2 = 0) : (pack codes).length % 3 = 0 := by
  induction codes using pack.induct with
  | case1 a b rest ih =>
    have hrest := ih (by simpa [Nat.add_assoc] using h)
    simp only [pack, List.length_cons]
    omega
  | case2 codes hno => simp [pack]

theorem tripleCodes_pack {codes : List Code} (h : codes.length % 2 = 0) :
    tripleCodes (pack codes) = codes.map zext16 := by
  induction codes using pack.induct with
  | case1 a b rest ih =>
    have hrest := ih (by simpa [Nat.add_assoc] using h)
    simp [pack, tripleCodes, codeA_pack, codeB_pack, hrest]
  | case2 codes hno =>
    match codes with
    | [] => rfl
    | [_] => simp at h
    | a :: b :: rest => exact (hno a b rest rfl).elim

/-- Settles O8: the packed list is whole triples, and each gives its two codes back. -/
theorem extractOfPack : Obligations.ExtractOfPack := by
  intro codes h
  have hlen := pack_length h
  rw [extract_triples (by omega) (by omega), tripleCodes_pack h]

theorem tripleCodes_concat_two {bytes : List Byte} (h : bytes.length % 3 = 0) (x y : Byte) :
    tripleCodes (bytes ++ [x, y]) = tripleCodes bytes := by
  rw [tripleCodes_append h]
  exact List.append_nil _

theorem tripleCodes_concat_four {bytes : List Byte} (h : bytes.length % 3 = 0) (b0 b1 b2 z : Byte) :
    tripleCodes (bytes ++ [b0, b1, b2, z]) =
      tripleCodes bytes ++ [zext16 (codeA b0 b1), zext16 (codeB b1 b2)] :=
  tripleCodes_append h _

theorem tailWord_concat_four (bytes : List Byte) (b0 b1 b2 z : Byte) :
    tailWord (bytes ++ [b0, b1, b2, z]) = wide b2 z := by
  simp [tailWord, List.getD_eq_getElem?_getD]

/-- With one byte after whole triples `code_B` of the last triple is replaced, and `code_A` reads the high nibble of its
second byte only (R84 corner case 2). -/
theorem extract_concat_four {bytes : List Byte} (h : bytes.length % 3 = 0) (b0 b1 b2 z : Byte) :
    extract (bytes ++ [b0, b1, b2, z]) = some (tripleCodes bytes ++ [zext16 (codeA b0 b1)] ++ [wide b2 z]) := by
  have hlen : (bytes ++ [b0, b1, b2, z]).length = bytes.length + 4 := by simp
  rw [extract_tail1 (by omega) (by omega), tripleCodes_concat_four h, tailWord_concat_four]
  simp

theorem codeA_congr {b1 b1' : Byte} (h : b1 >>> 4 = b1' >>> 4) (b0 : Byte) : codeA b0 b1 = codeA b0 b1' := by
  have hn := congrArg BitVec.toNat h
  simp only [BitVec.toNat_ushiftRight, Nat.shiftRight_eq_div_pow] at hn
  apply BitVec.eq_of_toNat_eq
  rw [codeA_toNat, codeA_toNat]
  omega

/-- Settles O19: two bytes are no triple, and `code_A` of the last triple reads a high nibble only. -/
theorem droppedBits : Obligations.DroppedBits := by
  refine ⟨fun bytes x y hne h => ?_, fun bytes b0 b1 b1' b2 z h hb => ?_⟩
  · have hpos := List.length_pos_iff.2 hne
    have hlen : (bytes ++ [x, y]).length = bytes.length + 2 := by simp
    rw [extract_triples (by omega) (by omega), extract_triples (by omega) (by omega), tripleCodes_concat_two h]
  · rw [extract_concat_four h, extract_concat_four h, codeA_congr hb]

end Sys2Proof
end

section
/-! PROOF. What an operation that answers a next state has done, once for all 26 (spec/30_encoding.md R75, R76), and what a
step does with it (spec/44_run_control.md R156). The invariants of single steps are read off here. -/

open Sys2Proof.Statements

namespace Sys2Proof.Machine

/-! ### One operation -/

/-- The next states of an operation, each as a named update of the state before it. -/
inductive Performed (s : State) : Instr → State → Prop where
  | begun (hq : s.phase.quiet = true) : Performed s .runStart (beginRun s)
  | unavailable (hq : s.phase.quiet = true) : Performed s .runStart (raiseFault .sourceUnavailable 0 (beginRun s))
  | ignored (hq : s.phase.quiet = false) : Performed s .runStart s
  | configured : Performed s .runCfgchk (latchMax s.dictExp { s with phase := .config })
  | misconfigured :
      Performed s .runCfgchk (raiseFault .configurationError s.dictExp.toNat { s with phase := .config })
  | done : Performed s .runDone { outCommit s with phase := .done }
  | raised (f : RunFault) (info : Nat) : Performed s (.runFault f info) (raiseFault f info s)
  | empty : Performed s .xEmpty { s with nCodes := 0 }
  | one : Performed s .xOne (raiseFault .malformedLength s.inLen s)
  | pair (w : CodeWord) : Performed s (.xPair16 w) (storePair w s)
  | triple (a b : Code) : Performed s (.xTriple a b) (storeTriple a b s)
  | tail1 (n : Nat) (w : CodeWord) : Performed s (.xTail1 w) (storeTail n w s)
  | tail2 : Performed s .xTail2 s
  | init : Performed s .dictInit (dictInit s)
  | looked (dst : EntryReg) (k : Code) (t : Str) : Performed s (.dictLookup dst k) (writeEntry dst t s)
  | reset : Performed s .dictReset (dictReset s)
  | inserted (t : Str) : Performed s (.dictInsert t) (insertAt t s)
  | grown (t : Str) : Performed s (.dictGrow t) (insertAt t (growFrom s))
  | seedAbsent {i : Instr} (c : CodeWord) (hi : i.format = .cw) :
      Performed s i (raiseFault .unknownSeedCode c.toNat (latchWord c s))
  | seedPresent {i : Instr} (c : CodeWord) (t : Str) (hi : i.format = .cw) :
      Performed s i (seedFinish c t (latchWord c s))
  | loop {i : Instr} {u : State} (hi : i.format = .cw) (hu : LoopEnd s u) : Performed s i u
  | cleared : Performed s .outClear (outClear s)
  | appended (t : Str) : Performed s (.outAppend t) (outAppend t s)
  | committed : Performed s .outCommit (outCommit s)
  | discarded : Performed s .outDiscard (outDiscard s)

theorem execRunStart_performed {s t : State} (h : execRunStart s = .next t) : Performed s .runStart t := by
  cases hq : s.phase.quiet with
  | false => exact Host.Outcome.next.inj ((execRunStart_busy hq).symm.trans h) ▸ .ignored hq
  | true =>
    cases hsrc : s.srcOk with
    | false => exact Host.Outcome.next.inj ((execRunStart_unavailable hq hsrc).symm.trans h) ▸ .unavailable hq
    | true => exact Host.Outcome.next.inj ((execRunStart_ok hq hsrc).symm.trans h) ▸ .begun hq

theorem execRunCfgchk_performed {s t : State} (h : execRunCfgchk s = .next t) : Performed s .runCfgchk t := by
  by_cases he : s.dictExp.toNat < 8 ∨ 12 < s.dictExp.toNat
  · exact Host.Outcome.next.inj ((execRunCfgchk_illegal he).symm.trans h) ▸ .misconfigured
  · exact Host.Outcome.next.inj ((execRunCfgchk_legal (by omega) (by omega)).symm.trans h) ▸ .configured

theorem execXTail1_performed {w : CodeWord} {s t : State} (h : execXTail1 w s = .next t) :
    Performed s (.xTail1 w) t := by
  unfold execXTail1 at h
  split at h
  · cases h
  · exact Host.Outcome.next.inj h ▸ .tail1 _ w

theorem seedStep_performed {c : CodeWord} {s t : State} {i : Instr} (hi : i.format = .cw)
    (h : seedStep c s = .next t) : Performed s i t := by
  obtain ⟨-, rfl⟩ | ⟨e, -, -, rfl⟩ := seedStep_next h
  · exact .seedAbsent c hi
  · exact .seedPresent c e hi

theorem exec_performed {i : Instr} {s t : State} (h : exec i s = .next t) : Performed s i t := by
  cases i with
  | runStart => exact execRunStart_performed h
  | runCfgchk => exact execRunCfgchk_performed h
  | runDone => exact Host.Outcome.next.inj h ▸ .done
  | runFault f info => exact Host.Outcome.next.inj h ▸ .raised f info
  | xEmpty => exact Host.Outcome.next.inj h ▸ .empty
  | xOne => exact Host.Outcome.next.inj h ▸ .one
  | xPair16 w => exact Host.Outcome.next.inj h ▸ .pair w
  | xTriple a b => exact Host.Outcome.next.inj h ▸ .triple a b
  | xTail1 w => exact execXTail1_performed h
  | xTail2 => exact Host.Outcome.next.inj h ▸ .tail2
  | dictInit => exact Host.Outcome.next.inj h ▸ .init
  | dictLookup dst k =>
    obtain ⟨e, -, he⟩ := andThen_eq_next.1 h
    exact Host.Outcome.next.inj he ▸ .looked dst k e
  | dictReset => exact Host.Outcome.next.inj h ▸ .reset
  | dictInsert e => exact (dictInsert_eq_next.1 h).2 ▸ .inserted e
  | dictGrow e => exact (dictGrow_next h).2 ▸ .grown e
  | dSeed c => exact seedStep_performed rfl h
  | dKnown c => exact .loop rfl (prelude_caseA_end h)
  | dSelfref c => exact .loop rfl (prelude_caseB_end h)
  | dSeedLegal c => exact seedStep_performed rfl h
  | dKnownStatic c => exact .loop rfl (prelude_caseA_end h)
  | dSelfrefStatic hi c => exact .loop rfl (prelude_caseB_end h)
  | dDynamic c => exact (execDDynamic_next h).elim (seedStep_performed rfl) (.loop rfl)
  | outClear => exact Host.Outcome.next.inj h ▸ .cleared
  | outAppend e => exact Host.Outcome.next.inj h ▸ .appended e
  | outCommit => exact Host.Outcome.next.inj h ▸ .committed
  | outDiscard => exact Host.Outcome.next.inj h ▸ .discarded

/-! ### Host -/
theorem LoopEnd.sameHost {s u : State} (h : LoopEnd s u) : SameHost s u := by
  cases h <;> simp [SameHost]

theorem Performed.sameHost {s t : State} {i : Instr} (h : Performed s i t) : SameHost s t := by
  cases h with
  | loop hi hu => exact hu.sameHost
  | _ => simp [SameHost]

theorem LoopEnd.canonical {s u : State} (h : LoopEnd s u) (hs : Canonical s) : Canonical u := by
  cases h with
  | stale c => exact (hs.latchWord c).raiseFault _ _
  | known c p r b => exact ((hs.latchWord c).writeEntry .prevEntry p).knownEnd c p (b :: r) b
  | selfref c r b => exact ((hs.latchWord c).writeEntry .prevEntry (b :: r)).selfrefEnd _

theorem Canonical.storeTriple {s : State} (h : Canonical s) (a b : Code) : Canonical (storeTriple a b s) :=
  (h.writeCode s.nCodes (zext16 a)).writeCode (s.nCodes + 1) (zext16 b)

theorem Performed.canonical {s t : State} {i : Instr} (h : Performed s i t) (hs : Canonical s) : Canonical t := by
  cases h with
  | begun hq => exact hs.beginRun
  | unavailable hq => exact hs.beginRun.raiseFault _ _
  | ignored hq => exact hs
  | configured => exact hs
  | misconfigured => exact Canonical.raiseFault (s := { s with phase := .config }) hs _ _
  | done => exact hs
  | raised f info => exact hs.raiseFault f info
  | empty => exact hs
  | one => exact hs.raiseFault _ _
  | pair w => exact hs.writeCode 0 w
  | triple a b => exact hs.storeTriple a b
  | tail1 n w => exact hs.writeCode n w
  | tail2 => exact hs
  | init => exact hs.dictInit
  | looked dst k e => exact hs.writeEntry dst e
  | reset => exact hs
  | inserted e => exact hs.insertAt e
  | grown e => exact hs.growFrom.insertAt e
  | seedAbsent c hi => exact (hs.latchWord c).raiseFault _ _
  | seedPresent c e hi => exact (hs.latchWord c).seedFinish c e
  | loop hi hu => exact hu.canonical hs
  | cleared => exact hs.outClear
  | appended e => exact hs.outAppend e
  | committed => exact hs
  | discarded => exact hs.outDiscard

/-! ### The status of a run -/

/-- The operations that write `STATUS` also where they take no fault (R140, R143, R144, R151, R153, R155). -/
def writesStatus : Instr → Bool
  | .runStart | .runCfgchk | .runDone | .outClear | .outCommit | .outDiscard => true
  | _ => false

/-- The operations of the states between DICT.INIT and the end of a run (R156). -/
def decodes : Instr → Bool
  | .outAppend _ | .dictReset | .dictInsert _ => true
  | i => decide (i.format = .cw)

/-- The next state of an operation that may fault: a fault entry, or `STATUS` and the state machines as they were. -/
def FaultsOrKeeps (s t : State) : Prop :=
  (∃ f info v, t = raiseFault f info v) ∨ (SameStatus s t ∧ SameControl s t)

theorem LoopEnd.faultsOrKeeps {s u : State} (h : LoopEnd s u) : FaultsOrKeeps s u := by
  cases h with
  | stale c => exact .inl ⟨_, _, _, rfl⟩
  | known c p r b => exact .inr (by simp [SameStatus, SameControl])
  | selfref c r b => exact .inr (by simp [SameStatus, SameControl])

theorem Performed.faultsOrKeeps {s t : State} {i : Instr} (h : Performed s i t) (hi : writesStatus i = false) :
    FaultsOrKeeps s t := by
  cases h with
  | begun hq => exact absurd hi (by decide)
  | unavailable hq => exact absurd hi (by decide)
  | ignored hq => exact absurd hi (by decide)
  | configured => exact absurd hi (by decide)
  | misconfigured => exact absurd hi (by decide)
  | done => exact absurd hi (by decide)
  | cleared => exact absurd hi (by decide)
  | committed => exact absurd hi (by decide)
  | discarded => exact absurd hi (by decide)
  | raised f info => exact .inl ⟨f, info, s, rfl⟩
  | one => exact .inl ⟨_, _, s, rfl⟩
  | seedAbsent c => exact .inl ⟨_, _, _, rfl⟩
  | loop _ hu => exact hu.faultsOrKeeps
  | _ => exact .inr (by simp [SameStatus, SameControl])

/-- `CODES` is as it was, and unless there is a fault `OUT` has grown at its end (R35 (e), (f)). -/
def OutGrows (s t : State) : Prop :=
  t.codes = s.codes ∧ t.nCodes = s.nCodes ∧
  (t.phase = .fault ∨ ∃ e, t.outMem = memWriteBytes s.outMem s.outLen e ∧ t.outLen = s.outLen + e.length)

theorem outGrows_of_same {s t : State} (hc : t.codes = s.codes) (hn : t.nCodes = s.nCodes) (ho : SameOutput s t) :
    OutGrows s t :=
  ⟨hc, hn, .inr ⟨[], ho.2, ho.1⟩⟩

theorem LoopEnd.outGrows {s u : State} (h : LoopEnd s u) : OutGrows s u := by
  cases h with
  | stale c => exact ⟨rfl, rfl, .inl rfl⟩
  | known c p r b => exact ⟨by simp, by simp, .inr ⟨b :: r, by simp, by simp⟩⟩
  | selfref c r b => exact ⟨by simp, by simp, .inr ⟨(b :: r) ++ [b], by simp, by simp⟩⟩

theorem Performed.outGrows {s t : State} {i : Instr} (h : Performed s i t) (hi : decodes i = true) : OutGrows s t := by
  cases h with
  | reset => exact outGrows_of_same rfl rfl ⟨rfl, rfl⟩
  | inserted e => exact outGrows_of_same rfl rfl ⟨rfl, rfl⟩
  | appended e => exact ⟨rfl, rfl, .inr ⟨e, rfl, rfl⟩⟩
  | seedAbsent c => exact ⟨rfl, rfl, .inl rfl⟩
  | seedPresent c e => exact ⟨rfl, rfl, .inr ⟨e, rfl, rfl⟩⟩
  | loop _ hu => exact hu.outGrows
  | _ => cases hi

/-! ### Transitions without an operation -/

/-- The transitions of R156 and R109 that perform no operation of the table. -/
inductive Moved (s : State) : State → Prop where
  | toPair (hf : s.fsm = .sXsel) : Moved s (enter .sXpair s)
  | toWalk (hf : s.fsm = .sXsel) : Moved s (enter .sXwalk s)
  | toConfig (hf : s.fsm = .sXtail) : Moved s (enter .sCfg s)
  | classified (hf : s.fsm = .sClass) (known : Bool) (w : Work) : Moved s (enter (.sEmit known) { s with work := w })
  | checked (known : Bool) (hf : s.fsm = .sGrow known) (g : GrowFsm) : Moved s { s with grow := g }
  | nextWord (known : Bool) (hf : s.fsm = .sNext known) : Moved s (nextWord known s)

theorem formKnown_next {c : CodeWord} {s t : State} (h : formKnown c s = .next t) :
    ∃ w, t = { s with work := w } := by
  simp only [formKnown, andThen_eq_next, Host.Outcome.next.injEq] at h
  obtain ⟨e, -, b, -, rfl⟩ := h
  exact ⟨_, rfl⟩

theorem formSelfref_next {s t : State} (h : formSelfref s = .next t) : ∃ w, t = { s with work := w } := by
  simp only [formSelfref, andThen_eq_next, Host.Outcome.next.injEq] at h
  obtain ⟨b, -, rfl⟩ := h
  exact ⟨_, rfl⟩

theorem classify_next {s t : State} (h : classify s = .next t) :
    ∃ known w, t = enter (.sEmit known) { s with work := w } := by
  unfold classify at h
  split at h
  · obtain ⟨u, hu, ht⟩ := andThen_eq_next.1 h
    obtain ⟨w, rfl⟩ := formKnown_next hu
    exact ⟨true, w, (Host.Outcome.next.inj ht).symm⟩
  · obtain ⟨u, hu, ht⟩ := andThen_eq_next.1 h
    obtain ⟨w, rfl⟩ := formSelfref_next hu
    exact ⟨false, w, (Host.Outcome.next.inj ht).symm⟩

/-- A transition writes registers of the decoder and of the state machines only. -/
theorem Moved.eq {s u : State} (h : Moved s u) : u =
    { s with fsm := u.fsm, phase := u.phase, work := u.work, prevCode := u.prevCode, ci := u.ci, grow := u.grow } := by
  cases h with
  | nextWord known hf => cases known <;> rfl
  | _ => rfl

theorem Moved.sameHost {s u : State} (h : Moved s u) : SameHost s u := by
  rw [h.eq]
  exact ⟨rfl, rfl, rfl, rfl, rfl⟩

theorem Moved.canonical {s u : State} (h : Moved s u) (hs : Canonical s) : Canonical u := by
  rw [h.eq]
  exact hs

/-! ### What a step performs -/

/-- What the fetch answers (R152, R156): the wait and the start while the block waits, the two operations of a run that
write `STATUS` in their own states, any other operation, or a transition without one. -/
inductive Selected (s : State) : Action → Prop where
  | wait (hw : waiting s = true) (hs : s.start = false) : Selected s .wait
  | start (hw : waiting s = true) (hs : s.start = true) : Selected s (.op .runStart)
  | done (hf : s.fsm = .sDone) (hp : s.phase ≠ .done) : Selected s (.op .runDone)
  | config (hf : s.fsm = .sCfg) : Selected s (.op .runCfgchk)
  | run (i : Instr) (hf : s.fsm.phase.quiet = false) (hi : writesStatus i = false)
      (hd : s.fsm.decoding = true → decodes i = true) : Selected s (.op i)
  | move (u : State) (hu : Moved s u) : Selected s (.move u)

theorem selectWaiting_selected {s : State} (hw : waiting s = true) : Selected s (selectWaiting s) := by
  unfold selectWaiting
  split
  · next hs => exact .start hw hs
  · next hs => exact .wait hw (Bool.eq_false_iff.2 hs)

theorem selectByLength_selected {s : State} (hf : s.fsm = .sXsel) : Selected s (selectByLength s) := by
  have hq : s.fsm.phase.quiet = false := by rw [hf]; rfl
  have hd : s.fsm.decoding ≠ true := by rw [hf]; nofun
  unfold selectByLength
  split
  · exact .run _ hq rfl fun h => absurd h hd
  · exact .run _ hq rfl fun h => absurd h hd
  · exact .move _ (.toPair hf)
  · exact .move _ (.toWalk hf)

theorem selectTail_selected {s : State} {a : Action} (hf : s.fsm = .sXtail) (h : selectTail s = .next a) :
    Selected s a := by
  have hq : s.fsm.phase.quiet = false := by rw [hf]; rfl
  have hd : s.fsm.decoding ≠ true := by rw [hf]; nofun
  unfold selectTail at h
  split at h
  · split at h
    · cases h
    · obtain ⟨p, -, hp⟩ := andThen_eq_next.1 h
      cases hp
      exact .run _ hq rfl fun h => absurd h hd
  · split at h <;> cases h
    · exact .run _ hq rfl fun h => absurd h hd
    · exact .move _ (.toConfig hf)

theorem selectGrow_selected {s : State} {known : Bool} (hf : s.fsm = .sGrow known) : Selected s (selectGrow s) := by
  have hq : s.fsm.phase.quiet = false := by rw [hf]; rfl
  unfold selectGrow
  split
  · exact .move _ (.checked known hf _)
  · exact .move _ (.checked known hf _)
  · exact .run _ hq rfl fun _ => rfl
  · exact .run _ hq rfl fun _ => rfl

theorem writesStatus_decodeSeedWord (c : CodeWord) : writesStatus (decodeSeedWord c) = false := by
  unfold decodeSeedWord
  split
  · rfl
  · split <;> rfl

theorem writesStatus_decodeLoopWord (c : CodeWord) : writesStatus (decodeLoopWord c) = false := by
  unfold decodeLoopWord
  split
  · rfl
  · split <;> rfl

theorem decodes_decodeSeedWord (c : CodeWord) : decodes (decodeSeedWord c) = true := by
  unfold decodeSeedWord
  split
  · rfl
  · split <;> rfl

theorem decodes_decodeLoopWord (c : CodeWord) : decodes (decodeLoopWord c) = true := by
  unfold decodeLoopWord
  split
  · rfl
  · split <;> rfl

theorem select_selected {s : State} {a : Action} (h : select s = .next a) : Selected s a := by
  unfold select at h
  split at h
  case h_1 hf => exact Host.Outcome.next.inj h ▸ selectWaiting_selected (by simp [waiting, hf])
  case h_2 hf => exact Host.Outcome.next.inj h ▸ selectWaiting_selected (by simp [waiting, hf])
  case h_3 hf =>
    split at h <;> cases h
    · next hp => exact selectWaiting_selected (by simp [waiting, hf, hp])
    · next hp => exact .done hf hp
  case h_4 hf => exact Host.Outcome.next.inj h ▸ selectByLength_selected hf
  case h_5 hf =>
    obtain ⟨p, -, hp⟩ := andThen_eq_next.1 h
    exact Host.Outcome.next.inj hp ▸ .run _ (by rw [hf]; rfl) rfl (by rw [hf]; nofun)
  case h_6 hf =>
    obtain ⟨b0, -, hb⟩ := andThen_eq_next.1 h
    obtain ⟨p, -, hp⟩ := andThen_eq_next.1 hb
    exact Host.Outcome.next.inj hp ▸ .run _ (by rw [hf]; rfl) rfl (by rw [hf]; nofun)
  case h_7 hf => exact selectTail_selected hf h
  case h_8 hf => exact Host.Outcome.next.inj h ▸ .config hf
  case h_9 hf => exact Host.Outcome.next.inj h ▸ .run _ (by rw [hf]; rfl) rfl (by rw [hf]; nofun)
  case h_10 hf =>
    obtain ⟨c, -, hc⟩ := andThen_eq_next.1 h
    exact Host.Outcome.next.inj hc ▸ .run _ (by rw [hf]; rfl) (writesStatus_decodeSeedWord c)
      fun _ => decodes_decodeSeedWord c
  case h_11 hf =>
    obtain ⟨c, -, hc⟩ := andThen_eq_next.1 h
    exact Host.Outcome.next.inj hc ▸ .run _ (by rw [hf]; rfl) (writesStatus_decodeLoopWord c)
      fun _ => decodes_decodeLoopWord c
  case h_12 hf =>
    obtain ⟨u, hu, hm⟩ := andThen_eq_next.1 h
    obtain ⟨known, w, rfl⟩ := classify_next hu
    exact Host.Outcome.next.inj hm ▸ .move _ (.classified hf known w)
  case h_13 known hf => exact Host.Outcome.next.inj h ▸ .run _ (by rw [hf]; rfl) rfl fun _ => rfl
  case h_14 known hf => exact Host.Outcome.next.inj h ▸ selectGrow_selected hf
  case h_15 known hf => exact Host.Outcome.next.inj h ▸ .move _ (.nextWord known hf)

/-- A step that answers a next state: the fetch, then the wait, the operation with its transition, or the transition. -/
theorem step_inv {s t : State} (h : step s = .next t) :
    (waiting s = true ∧ s.start = false ∧ t = consumeStart s) ∨
    (∃ i u, Selected s (.op i) ∧ Performed (consumeStart s) i u ∧ t = afterOp s.fsm u) ∨
    (∃ u, Moved s u ∧ t = consumeStart u) := by
  obtain ⟨a, ha, hp⟩ := step_eq_next.1 h
  have hsel := select_selected ha
  cases a with
  | wait =>
    cases hsel with
    | wait hw hs => exact .inl ⟨hw, hs, (Host.Outcome.next.inj hp).symm⟩
  | op i =>
    obtain ⟨u, hu, ht⟩ := andThen_eq_next.1 hp
    exact .inr (.inl ⟨i, u, hsel, exec_performed hu, (Host.Outcome.next.inj ht).symm⟩)
  | move u =>
    cases hsel with
    | move _ hu => exact .inr (.inr ⟨u, hu, (Host.Outcome.next.inj hp).symm⟩)

/-! ### What every step leaves as it was -/

theorem step_host {s t : State} (h : step s = .next t) :
    t.dictExp = s.dictExp ∧ t.srcOk = s.srcOk ∧ t.inLen = s.inLen ∧ t.inMem = s.inMem := by
  obtain ⟨-, -, rfl⟩ | ⟨i, u, -, hu, rfl⟩ | ⟨u, hu, rfl⟩ := step_inv h
  · exact ⟨rfl, rfl, rfl, rfl⟩
  · obtain ⟨hexp, -, hsrc, hlen, hmem⟩ := hu.sameHost
    simpa using ⟨hexp, hsrc, hlen, hmem⟩
  · obtain ⟨hexp, -, hsrc, hlen, hmem⟩ := hu.sameHost
    exact ⟨hexp, hsrc, hlen, hmem⟩

/-- A step takes the pending start with it (R28, R157). -/
theorem step_start {s t : State} (h : step s = .next t) : t.start = false := by
  obtain ⟨-, -, rfl⟩ | ⟨i, u, -, hu, rfl⟩ | ⟨u, -, rfl⟩ := step_inv h
  · rfl
  · obtain ⟨-, hstart, -⟩ := hu.sameHost
    rw [afterOp_start, hstart, consumeStart_start]
  · rfl

theorem step_canonical {s t : State} (hs : Canonical s) (h : step s = .next t) : Canonical t := by
  obtain ⟨-, -, rfl⟩ | ⟨i, u, -, hu, rfl⟩ | ⟨u, hu, rfl⟩ := step_inv h
  · exact hs
  · exact (hu.canonical hs.consumeStart).afterOp _
  · exact (hu.canonical hs).consumeStart

theorem not_waiting_of_decoding {s : State} (h : s.fsm.decoding = true) : waiting s = false := by
  cases hf : s.fsm <;> simp_all [waiting, Fsm.decoding, Fsm.inLoop]

/-- R35 (e), (f): between DICT.INIT and the end of a run. -/
theorem step_outGrows {s t : State} (hd : s.fsm.decoding = true) (h : step s = .next t) : OutGrows s t := by
  obtain ⟨-, -, rfl⟩ | ⟨i, u, hsel, hu, rfl⟩ | ⟨u, hu, rfl⟩ := step_inv h
  · exact outGrows_of_same rfl rfl ⟨rfl, rfl⟩
  · have hi : decodes i = true := by
      cases hsel with
      | run _ _ _ hi => exact hi hd
      | start hw => exact absurd hw (by simp [not_waiting_of_decoding hd])
      | done hf | config hf => rw [hf] at hd; cases hd
    obtain ⟨hc, hn, hout⟩ := hu.outGrows hi
    refine ⟨by simpa using hc, by simpa using hn, ?_⟩
    obtain hp | ⟨e, hmem, hlen⟩ := hout
    · exact .inl (by rw [afterOp_fault hp, hp])
    · exact .inr ⟨e, by simpa using hmem, by simpa using hlen⟩
  · rw [hu.eq]
    exact outGrows_of_same rfl rfl ⟨rfl, rfl⟩

/-! ### Where the state machines stand -/

theorem ControlOk.phase_eq {s : State} (h : ControlOk s) (hf : s.fsm ≠ .sDone) : s.phase = s.fsm.phase := by
  obtain ⟨hp, -⟩ := h
  split at hp
  · next hd => exact absurd hd hf
  · exact hp

theorem ControlOk.phase_sDone {s : State} (h : ControlOk s) (hf : s.fsm = .sDone) :
    s.phase = .config ∨ s.phase = .seed ∨ s.phase = .loop ∨ s.phase = .done := by
  obtain ⟨hp, -⟩ := h
  simpa only [hf] using hp

theorem controlOk_of_phase {s : State} (hf : s.fsm ≠ .sDone) (hp : s.phase = s.fsm.phase)
    (hg : (∀ known, s.fsm ≠ .sGrow known) → s.grow = .gIdle) : ControlOk s := by
  refine ⟨?_, hg⟩
  split
  · next hd => exact absurd hd hf
  · exact hp

theorem controlOk_sDone {s : State} (hf : s.fsm = .sDone)
    (hp : s.phase = .config ∨ s.phase = .seed ∨ s.phase = .loop ∨ s.phase = .done) (hg : s.grow = .gIdle) :
    ControlOk s :=
  ⟨by simpa only [hf] using hp, fun _ => hg⟩

/-- The block is busy (R157) exactly when its state machine does not wait for a start (R156). -/
theorem ControlOk.waiting_eq {s : State} (h : ControlOk s) : waiting s = s.phase.quiet := by
  by_cases hd : s.fsm = .sDone
  · obtain hp | hp | hp | hp := h.phase_sDone hd <;> simp [waiting, hd, hp, Phase.quiet]
  · rw [h.phase_eq hd]
    cases hf : s.fsm with
    | sDone => exact absurd hf hd
    | _ => simp [waiting, hf, Fsm.phase, Phase.quiet]

theorem raiseFault_controlOk (f : RunFault) (info : Nat) (s : State) : ControlOk (raiseFault f info s) :=
  controlOk_of_phase nofun rfl fun _ => rfl

theorem raiseFault_statusOk (f : RunFault) (info : Nat) (s : State) : StatusOk (raiseFault f info s) := by
  simp [StatusOk]

/-- While the block is busy, a consistent status shows neither a fault nor an output. -/
theorem statusOk_of_busy {s : State} (hq : s.phase.quiet = false) :
    StatusOk s ↔ s.faultCode = none ∧ s.outValid = false := by
  have hf : s.phase ≠ .fault := fun h => by simp [h, Phase.quiet] at hq
  have hd : s.phase ≠ .done := fun h => by simp [h, Phase.quiet] at hq
  simp [StatusOk, hf, hd]

theorem phaseFrom_of_ne {f : Fsm} (h : f ≠ .sDone) (p : Phase) : f.phaseFrom p = f.phase := by
  cases f with
  | sDone => exact absurd rfl h
  | _ => rfl

/-- A run ends at the configuration check, at the seed step or in the main loop (R156). -/
theorem phase_of_nextFsm_sDone {f : Fsm} {t : State} (hf : f.phase.quiet = false) (h : nextFsm f t = .sDone) :
    f.phase = .config ∨ f.phase = .seed ∨ f.phase = .loop := by
  cases f with
  | sXwalk =>
    rw [nextFsm] at h
    split at h <;> cases h
  | sInit => exact .inl rfl
  | sSeed => exact .inr (.inl rfl)
  | sFetch => exact .inr (.inr rfl)
  | sGrow known => exact .inr (.inr rfl)
  | _ => simp [nextFsm, Fsm.phase, Phase.quiet] at h hf

theorem nextFsm_busy {f : Fsm} {t : State} (hf : f.phase.quiet = false) (h : nextFsm f t ≠ .sDone) :
    (nextFsm f t).phase.quiet = false := by
  cases f with
  | sXwalk => rw [nextFsm]; split <;> rfl
  | sGrow known => rw [nextFsm]; split <;> rfl
  | sInit =>
    have hn : t.nCodes ≠ 0 := fun e => h (if_pos e)
    rw [nextFsm, if_neg hn]
    rfl
  | sSeed | sFetch =>
    have hn : t.ci ≠ t.nCodes := fun e => h (if_pos e)
    rw [nextFsm, afterWord, if_neg hn]
    rfl
  | sIdle | sDone | sFault => cases hf
  | _ => rfl

/-- The overflow-reset machine rests again when the state machine leaves `S_GROW` (R109). -/
theorem nextGrow_rests {f : Fsm} {t : State} (hg : (∀ known, f ≠ .sGrow known) → t.grow = .gIdle)
    (h : ∀ known, nextFsm f t ≠ .sGrow known) : nextGrow f t = .gIdle := by
  cases f with
  | sGrow known =>
    have hne : t.grow ≠ .gReset := fun he => h known (by simp [nextFsm, he])
    simp [nextGrow, hne]
  | _ => exact hg nofun

section AfterOp

variable {f : Fsm} {t : State} (hf : f.phase.quiet = false) (hp : t.phase = f.phase)
  (hg : (∀ known, f ≠ .sGrow known) → t.grow = .gIdle)
include hf hp

theorem phase_ne_fault_of_busy : t.phase ≠ .fault := fun h => by
  rw [← hp, h] at hf
  cases hf

include hg in
/-- R156 after an operation that leaves the phase and the overflow-reset machine as they were. -/
theorem afterOp_controlOk : ControlOk (afterOp f t) := by
  have hne := phase_ne_fault_of_busy hf hp
  have hfsm := afterOp_fsm (f := f) hne
  have hgrow := afterOp_grow (f := f) hne
  have hphase := afterOp_phase (f := f) hne
  by_cases hd : nextFsm f t = .sDone
  · refine controlOk_sDone (hfsm.trans hd) ?_ (hgrow.trans (nextGrow_rests hg (by simp [hd])))
    rw [hphase, hd, show Fsm.phaseFrom .sDone t.phase = t.phase from rfl, hp]
    obtain h | h | h := phase_of_nextFsm_sDone hf hd <;> simp [h]
  · refine controlOk_of_phase (hfsm ▸ hd) ?_ fun h => hgrow.trans (nextGrow_rests hg (hfsm ▸ h))
    rw [hphase, hfsm, phaseFrom_of_ne hd]

theorem afterOp_busy : (afterOp f t).phase.quiet = false := by
  rw [afterOp_phase (phase_ne_fault_of_busy hf hp)]
  by_cases hd : nextFsm f t = .sDone
  · rwa [hd, show Fsm.phaseFrom .sDone t.phase = t.phase from rfl, hp]
  · rw [phaseFrom_of_ne hd]
    exact nextFsm_busy hf hd

end AfterOp

/-- RUN.START leaves a waiting block at the choice by length (R156). -/
theorem afterOp_beginRun {s : State} (hw : waiting s = true) (u : State) :
    afterOp s.fsm (beginRun u) = { beginRun u with fsm := .sXsel } := by
  unfold waiting at hw
  split at hw
  · next hf => rw [hf]; rfl
  · next hf => rw [hf]; rfl
  · next hf => rw [hf]; rfl
  · cases hw

theorem afterOp_raiseFault (g : Fsm) (f : RunFault) (info : Nat) (s : State) :
    afterOp g (raiseFault f info s) = raiseFault f info s :=
  afterOp_fault rfl

theorem raiseFault_ok (g : Fsm) (f : RunFault) (info : Nat) (s : State) :
    ControlOk (afterOp g (raiseFault f info s)) ∧ StatusOk (afterOp g (raiseFault f info s)) := by
  rw [afterOp_raiseFault]
  exact ⟨raiseFault_controlOk f info s, raiseFault_statusOk f info s⟩

/-- R151: the start of a run. -/
theorem start_ok {s u : State} (hw : waiting s = true) (hc : ControlOk s) (hu : Performed (consumeStart s) .runStart u) :
    ControlOk (afterOp s.fsm u) ∧ StatusOk (afterOp s.fsm u) := by
  cases hu with
  | begun =>
    rw [afterOp_beginRun hw]
    exact ⟨controlOk_of_phase nofun rfl fun _ => rfl, (statusOk_of_busy rfl).2 ⟨rfl, rfl⟩⟩
  | unavailable => exact raiseFault_ok ..
  | ignored hq =>
    rw [hc.waiting_eq] at hw
    exact absurd (hw.symm.trans hq) nofun
  | seedAbsent _ hi | seedPresent _ _ hi | loop hi => cases hi

/-- R155: the end of a run. -/
theorem done_ok {s u : State} (hf : s.fsm = .sDone) (hc : ControlOk s) (hs : StatusOk s) (hp : s.phase ≠ .done)
    (hu : Performed (consumeStart s) .runDone u) : ControlOk (afterOp s.fsm u) ∧ StatusOk (afterOp s.fsm u) := by
  have hgrow : s.grow = .gIdle := hc.2 (by simp [hf])
  have hfault : s.faultCode = none := by
    have hq := hc.waiting_eq
    rw [show waiting s = false by simp [waiting, hf, hp]] at hq
    exact ((statusOk_of_busy hq.symm).1 hs).1
  cases hu with
  | done =>
    rw [hf]
    exact ⟨controlOk_sDone rfl (.inr (.inr (.inr rfl))) hgrow, by simp [StatusOk, afterOp, hfault, nextFsm, Fsm.phaseFrom]⟩
  | seedAbsent _ hi | seedPresent _ _ hi | loop hi => cases hi

/-- An operation inside a run that faults, or leaves `STATUS` and the overflow-reset machine as they were. -/
theorem run_ok {s u : State} (hf : s.fsm.phase.quiet = false) (hc : ControlOk s) (hs : StatusOk s)
    (hu : FaultsOrKeeps (consumeStart s) u) : ControlOk (afterOp s.fsm u) ∧ StatusOk (afterOp s.fsm u) := by
  obtain ⟨f, info, v, rfl⟩ | ⟨⟨hphase, hfault, hvalid, -⟩, -, hgrow, -⟩ := hu
  · exact raiseFault_ok ..
  · have hne : s.fsm ≠ .sDone := fun h => by simp [h, Fsm.phase, Phase.quiet] at hf
    have hp : u.phase = s.fsm.phase := hphase.trans (hc.phase_eq hne)
    have hq := afterOp_busy hf hp
    refine ⟨afterOp_controlOk hf hp fun h => hgrow.trans (hc.2 h), (statusOk_of_busy hq).2 ?_⟩
    rw [afterOp_faultCode, afterOp_outValid, hfault, hvalid]
    exact (statusOk_of_busy (hc.phase_eq hne ▸ hf)).1 hs

/-- R153: the configuration check stands in its own phase. -/
theorem config_keeps {s u : State} (hf : s.fsm = .sCfg) (hc : ControlOk s)
    (hu : Performed (consumeStart s) .runCfgchk u) : FaultsOrKeeps (consumeStart s) u := by
  have hp : s.phase = .config := (hc.phase_eq (by simp [hf])).trans (by rw [hf]; rfl)
  cases hu with
  | configured => exact .inr (by simp [SameStatus, SameControl, hp])
  | misconfigured => exact .inl ⟨_, _, _, rfl⟩
  | seedAbsent _ hi | seedPresent _ _ hi | loop hi => cases hi

/-- The last two lines of R123 and of R124. -/
def wordEnd (known : Bool) (s : State) : State := if known then finishKnown s.work.c s else finishSelfref s

theorem wordEnd_eq (known : Bool) (s : State) :
    wordEnd known s = { s with prevCode := (wordEnd known s).prevCode, ci := s.ci + 1 } := by
  cases known <;> rfl

@[simp] theorem wordEnd_phase (known : Bool) (s : State) : (wordEnd known s).phase = s.phase := by rw [wordEnd_eq]
@[simp] theorem wordEnd_grow (known : Bool) (s : State) : (wordEnd known s).grow = s.grow := by rw [wordEnd_eq]

/-- `S_NEXT` makes the transition of a whole main-loop step. -/
theorem nextWord_eq {s : State} (hp : s.phase ≠ .fault) (known : Bool) :
    nextWord known s = afterOp .sFetch (wordEnd known s) := by
  rw [afterOp_next (by rwa [wordEnd_phase])]
  rfl

theorem moved_ok {s u : State} (hc : ControlOk s) (hs : StatusOk s) (h : Moved s u) : ControlOk u ∧ StatusOk u := by
  have hq : s.phase.quiet = false ∧ u.phase.quiet = false ∧ ControlOk u := by
    cases h with
    | toPair hf | toWalk hf | toConfig hf | classified hf =>
      have hp := hc.phase_eq (by simp [hf])
      have hg := hc.2 (by simp [hf])
      rw [hf] at hp
      exact ⟨hp ▸ rfl, rfl, controlOk_of_phase nofun rfl fun _ => hg⟩
    | checked known hf g =>
      have hp := hc.phase_eq (by simp [hf])
      have hp' := hp.trans (congrArg Fsm.phase hf)
      exact ⟨hp' ▸ rfl, hp' ▸ rfl, controlOk_of_phase (by simp [hf]) hp fun h => absurd hf (h known)⟩
    | nextWord known hf =>
      have hp : s.phase = .loop := (hc.phase_eq (by simp [hf])).trans (congrArg Fsm.phase hf)
      have hg := hc.2 (by simp [hf])
      have hp' : (wordEnd known s).phase = Fsm.phase .sFetch := (wordEnd_phase known s).trans hp
      rw [nextWord_eq (by simp [hp])]
      exact ⟨hp ▸ rfl, afterOp_busy rfl hp', afterOp_controlOk rfl hp' fun _ => (wordEnd_grow known s).trans hg⟩
  obtain ⟨hqs, hqu, hcu⟩ := hq
  refine ⟨hcu, (statusOk_of_busy hqu).2 ?_⟩
  rw [h.eq]
  exact (statusOk_of_busy hqs).1 hs

theorem step_statusKept {s t : State} (hc : ControlOk s) (hs : StatusOk s) (h : step s = .next t) :
    ControlOk t ∧ StatusOk t := by
  obtain ⟨-, -, rfl⟩ | ⟨i, u, hsel, hu, rfl⟩ | ⟨u, hu, rfl⟩ := step_inv h
  · exact ⟨hc, hs⟩
  · cases hsel with
    | start hw => exact start_ok hw hc hu
    | done hf hp => exact done_ok hf hc hs hp hu
    | config hf => exact run_ok (by rw [hf]; rfl) hc hs (config_keeps hf hc hu)
    | run _ hf hi => exact run_ok hf hc hs (hu.faultsOrKeeps hi)
  · have hm := moved_ok hc hs hu
    exact hm

end Sys2Proof.Machine

namespace Sys2Proof

open Machine

/-- Settles O49: no named update of an operation writes a register of the host, and a step takes the pending start alone. -/
theorem coreNeverWritesHostState : Obligations.CoreNeverWritesHostState :=
  ⟨fun _ _ _ h => (exec_performed h).sameHost, fun _ _ h => step_host h⟩

/-- Settles O50: every named update of a space keeps its form. -/
theorem canonicalFormKept : Obligations.CanonicalFormKept :=
  ⟨fun _ _ _ hs h => (exec_performed h).canonical hs, fun _ _ hs h => step_canonical hs h⟩

/-- Settles O39: of the operations of a decoding state only the appends of R142 write the output, at its end. -/
theorem outputOnlyGrows : Obligations.OutputOnlyGrows := by
  intro s t hd h
  obtain ⟨hc, hn, hout⟩ := step_outGrows hd h
  refine ⟨hc, hn, fun hp => ?_⟩
  obtain ⟨e, hmem, hlen⟩ := hout.resolve_left hp
  refine ⟨by omega, fun a ha => ?_⟩
  rw [hmem, memWriteBytes_below _ _ _ _ ha]

/-- Settles O51: the start and the end of a run write their own status, and between them an operation faults or leaves
`STATUS` to the transition of R156. -/
theorem statusKept : Obligations.StatusKept := fun _ _ hc hs h => step_statusKept hc hs h

end Sys2Proof
end

section
/-! PROOF. Waiting, the start of a run and its end (spec/44_run_control.md R151, R155, R157, R158, R191). -/

open Sys2Proof.Statements

namespace Sys2Proof.Machine

theorem select_waiting {s : State} (hw : waiting s = true) : select s = .next (selectWaiting s) := by
  unfold waiting at hw
  split at hw
  · next hf => simp only [select, hf]
  · next hf => simp only [select, hf]
  · next hf => simp only [select, hf, if_pos (of_decide_eq_true hw)]
  · cases hw

theorem step_wait {s : State} (hw : waiting s = true) (hs : s.start = false) : step s = .next s := by
  have hsel : select s = .next .wait := by simp [select_waiting hw, selectWaiting, hs]
  have hst : consumeStart s = s := by rw [consumeStart, ← hs]
  rw [step_of_select hsel, perform, hst]

/-- A pending start runs RUN.START (R28). -/
theorem select_start {s : State} (hw : waiting s = true) (hs : s.start = true) : select s = .next (.op .runStart) := by
  simp [select_waiting hw, selectWaiting, hs]

/-- The block at the choice by length, right after RUN.START. -/
def begun (s : State) : State := { beginRun (consumeStart s) with fsm := .sXsel }

section Start

variable {s : State} (hc : ControlOk s) (hw : waiting s = true) (hs : s.start = true)
include hc hw hs

theorem step_start_ok (h : s.srcOk = true) : step s = .next (begun s) := by
  have hq : (consumeStart s).phase.quiet = true := hc.waiting_eq ▸ hw
  rw [step_of_op (select_start hw hs), exec, execRunStart_ok hq h, andThen_next, afterOp_beginRun hw]
  rfl

theorem step_start_unavailable (h : s.srcOk = false) :
    step s = .next (raiseFault .sourceUnavailable 0 (beginRun (consumeStart s))) := by
  have hq : (consumeStart s).phase.quiet = true := hc.waiting_eq ▸ hw
  rw [step_of_op (select_start hw hs), exec, execRunStart_unavailable hq h, andThen_next, afterOp_raiseFault]

end Start

/-- What RUN.START keeps of the state before it (R158), and the number of the next free value (log 2). -/
theorem begun_congr {s s' : State} (hexp : s.dictExp = s'.dictExp) (hsrc : s.srcOk = s'.srcOk)
    (hlen : s.inLen = s'.inLen) (hmem : s.inMem = s'.inMem) (hfree : s.freeCount = s'.freeCount) :
    begun s = begun s' := by
  simp [begun, beginRun, forgetRun, outClear, consumeStart, hexp, hsrc, hlen, hmem, hfree]

/-! ### A start while the block is busy -/

/-- `new_entry` and `emitted` of Case A or of Case B (R123, R124), with the outcome of the presence test. -/
def classWork (s : State) : Res (Bool × Work) :=
  if present s s.work.c then
    andThen (lookup s s.work.c.toNat) fun e => andThen (first e) fun b =>
      .next (true, { s.work with currEntry := e, newEntry := s.work.prevEntry ++ [b], emitted := e })
  else
    andThen (first s.work.prevEntry) fun b =>
      .next (false, { s.work with newEntry := s.work.prevEntry ++ [b], emitted := s.work.prevEntry ++ [b] })

theorem classify_eq (s : State) :
    classify s = andThen (classWork s) fun p => .next (enter (.sEmit p.1) { s with work := p.2 }) := by
  unfold classify classWork
  split
  · simp only [formKnown, andThen_assoc, andThen_next]
  · simp only [formSelfref, andThen_assoc, andThen_next]

theorem step_sClass {s : State} (hf : s.fsm = .sClass) :
    step s = andThen (classWork s) fun p => .next (consumeStart (enter (.sEmit p.1) { s with work := p.2 })) := by
  simp only [step, select, hf, classify_eq, andThen_assoc, andThen_next, perform]

/-- An action of a state with a pending start, without it. -/
def dropStart : Action → Action
  | .move t => .move (consumeStart t)
  | a => a

theorem perform_consumeStart (s : State) (a : Action) : perform (consumeStart s) (dropStart a) = perform s a := by
  cases a <;> rfl

/-- A busy block fetches the same with a start pending. -/
theorem select_consumeStart {s : State} (hw : waiting s = false) :
    select (consumeStart s) = andThen (select s) fun a => .next (dropStart a) := by
  cases hf : s.fsm with
  | sIdle | sFault => simp [waiting, hf] at hw
  | sDone =>
    have hp : s.phase ≠ .done := by simpa [waiting, hf] using hw
    simp only [select, consumeStart_fsm, consumeStart_phase, hf, hp, if_false]
    rfl
  | sXsel =>
    simp only [select, consumeStart_fsm, hf, selectByLength, consumeStart_inLen]
    split <;> rfl
  | sXtail =>
    simp only [select, consumeStart_fsm, hf, selectTail, consumeStart_inLen]
    by_cases h1 : s.inLen % 3 = 1
    · by_cases h4 : s.inLen < 4
      · simp only [h1, h4, if_true, andThen_fault]
      · simp only [h1, h4, if_true, if_false, andThen_assoc]
        rfl
    · by_cases h2 : s.inLen % 3 = 2
      · simp only [h2, if_true]
        rfl
      · simp only [h1, h2, if_false]
        rfl
  | sClass =>
    simp only [select, consumeStart_fsm, hf, classify_eq, andThen_assoc]
    rfl
  | sGrow known =>
    simp only [select, consumeStart_fsm, hf, selectGrow, consumeStart_grow]
    split <;> rfl
  | sNext known =>
    simp only [select, consumeStart_fsm, hf]
    cases known <;> rfl
  | sXpair | sXwalk | sSeed | sFetch =>
    simp only [select, selectPair, selectTriple, consumeStart_fsm, hf, andThen_assoc]
    rfl
  | _ =>
    simp only [select, consumeStart_fsm, hf]
    rfl

/-- R157: a pending start does not change the step of a busy block. -/
theorem step_consumeStart {s : State} (hw : waiting s = false) : step (consumeStart s) = step s := by
  simp only [step, select_consumeStart hw, andThen_assoc, andThen_next, perform_consumeStart]

end Sys2Proof.Machine

namespace Sys2Proof

open Machine

/-- Settles O10: the fetch of a waiting block answers the wait. -/
theorem waitingChangesNothing : Obligations.WaitingChangesNothing := fun _ hw hs => step_wait hw hs

/-- Settles O12: RUN.START overwrites every other register, and so does the fault it raises. -/
theorem runSharesNothingWithEarlierRun : Obligations.RunSharesNothingWithEarlierRun := by
  intro s s' hc hc' hw hw' hs hs' hexp hsrc hlen hmem hfree
  have hb := begun_congr hexp hsrc hlen hmem hfree
  cases h : s.srcOk with
  | true => exact ⟨_, step_start_ok hc hw hs h, hb ▸ step_start_ok hc' hw' hs' (hsrc ▸ h)⟩
  | false =>
    have hf := congrArg (raiseFault .sourceUnavailable 0) hb
    exact ⟨_, step_start_unavailable hc hw hs h,
      (step_start_unavailable hc' hw' hs' (hsrc ▸ h)).trans (congrArg Host.Outcome.next hf.symm)⟩

/-- Settles O11: the fetch of a busy block does not look at the start, the port ignores it, and RUN.START is ignored. -/
theorem startIgnoredWhileBusy : Obligations.StartIgnoredWhileBusy := by
  intro s hc hq
  have hw : waiting s = false := hc.waiting_eq.trans hq
  refine ⟨fun b => ?_, fun w t h => ?_, execRunStart_busy hq⟩
  · calc step { s with start := b }
      _ = step (consumeStart s) := (step_consumeStart (s := { s with start := b }) hw).symm
      _ = step s := step_consumeStart hw
  · have hno : hostMayWrite s = false := hostMayWrite_eq_false.2 (.inl hq)
    simp only [hostWriteCtrl, hno, Bool.false_eq_true, if_false] at h
    split at h
    · exact (Option.some.inj h).symm
    · cases h

/-- Settles O13: the two ends of RUN.START, field by field. -/
theorem runStartEffect : Obligations.RunStartEffect := by
  intro s hq
  refine ⟨fun h => ⟨_, execRunStart_ok hq h, ?_⟩, fun h => ⟨_, execRunStart_unavailable hq h, ?_⟩⟩
  · simp [SameHost]
  · simp [SameHost]

/-- Settles O46: the fetch names the operation. -/
theorem stepRunsSequencedOperation : Obligations.StepRunsSequencedOperation := by
  intro s
  refine ⟨fun hw hs => step_of_op (select_start hw hs), fun hf hn => ?_, fun hf hn => ?_, fun hf hm => ?_,
    fun hf => ?_, fun hf => ?_, fun hf hp => ?_⟩
  · exact step_of_op (by simp [select, hf, selectByLength, hn])
  · exact step_of_op (by simp [select, hf, selectByLength, hn])
  · exact step_of_op (by simp [select, hf, selectTail, hm])
  · exact step_of_op (by simp [select, hf])
  · exact step_of_op (by simp [select, hf])
  · exact step_of_op (by simp [select, hf, hp])

/-- Settles O41: RUN.DONE is OUT.COMMIT with the phase of the end. -/
theorem runDoneCommits : Obligations.RunDoneCommits := fun _ => rfl

end Sys2Proof
end

section
/-! PROOF. A decoder step of a sound state (spec/42_decoder_sequence.md R121 to R125): it always answers a next state, and
what that state is, case by case. The statements about a single step of the main loop are read off here. -/

open Sys2Proof.Statements

namespace Sys2Proof.Machine

/-! ### The cells a sound state reads -/

/-- The first `n` cells have a value. -/
def Filled {α : Type} (n : Nat) (m : List (Nat × α)) : Prop := ∀ a, a < n → cellsRead m a ≠ none

theorem Filled.read {α : Type} {n a : Nat} {m : List (Nat × α)} (h : Filled n m) (ha : a < n) :
    ∃ v, cellsRead m a = some v :=
  Option.ne_none_iff_exists'.1 (h a ha)

theorem exists_readCode {s : State} {i : Nat} (h : Filled s.nCodes s.codes) (hi : i < s.nCodes) :
    ∃ c, readCode s i = .next c := by
  obtain ⟨c, hc⟩ := h.read hi
  exact ⟨c, readCode_eq_next.2 ⟨hi, hc⟩⟩

/-- A live slot holds a string that is not empty (R35 (b), (c)). -/
theorem DictOk.exists_live {s : State} {k : Nat} (h : DictOk s) (hk : k < s.dictSize.toNat) :
    ∃ b r, dictRead s.dict k = some (b :: r) := by
  obtain ⟨-, hid, hhigh⟩ := h
  rcases Nat.lt_or_ge k 256 with hlt | hge
  · exact ⟨_, [], hid k hlt⟩
  · obtain ⟨t, ht, hlen⟩ := hhigh k hge hk
    obtain ⟨b, r, rfl⟩ := List.exists_cons_of_length_pos (show 0 < t.length by omega)
    exact ⟨b, r, ht⟩

section Sound

variable {s : State} (hs : Sound s)
include hs

theorem Sound.dictOk_of_sFetch (hf : s.fsm = .sFetch) : DictOk s := hs.dict (by rw [hf]; rfl)

theorem Sound.max_le (hf : s.fsm.decoding = true) : s.maxSize.toNat ≤ 4096 := (hs.maxSize (.inr hf)).le

theorem Sound.phase_sFetch (hf : s.fsm = .sFetch) : s.phase = .loop :=
  (hs.control.phase_eq (by simp [hf])).trans (congrArg Fsm.phase hf)

theorem Sound.readCode_sFetch (hf : s.fsm = .sFetch) : ∃ c, readCode s s.ci = .next c := by
  obtain ⟨-, hlt, -⟩ := hs.fetch_index hf
  exact exists_readCode (hs.codes (by simp [waiting, hf])) hlt

end Sound

/-! ### The main-loop step -/

theorem nextFsm_ne_sFault (f : Fsm) (t : State) : nextFsm f t ≠ .sFault := by
  cases f with
  | sDone | sXwalk | sInit | sGrow => rw [nextFsm]; split <;> nofun
  | sSeed | sFetch => rw [nextFsm, afterWord]; split <;> nofun
  | _ => nofun

/-- A transition takes no fault by itself. -/
theorem afterOp_phase_eq_fault {f : Fsm} {t : State} : (afterOp f t).phase = .fault ↔ t.phase = .fault := by
  refine ⟨fun h => by_contra fun hne => ?_, fun h => by rw [afterOp_fault h, h]⟩
  rw [afterOp_phase hne] at h
  cases hg : nextFsm f t with
  | sDone =>
    rw [hg] at h
    exact hne h
  | sFault => exact nextFsm_ne_sFault f t hg
  | _ => simp [hg, Fsm.phaseFrom, Fsm.phase] at h

/-- What a main-loop step with the code word `c` does to a sound state (R122 to R124). -/
inductive LoopOutcome (c : CodeWord) (s u : State) : Prop where
  | stale (h : s.dictSize.toNat ≤ s.prevCode.toNat)
      (hu : u = raiseFault .internalInconsistency s.prevCode.toNat (latchWord c s))
  | known (e new : Str) (h : prevPresent s) (hc : present s c) (hn : 2 ≤ new.length) (hu : LoopStepped e new s u)
      (hprev : u.prevCode.toNat = c.toNat)
  | selfref (e : Str) (h : prevPresent s) (hc : ¬ present s c) (hn : 2 ≤ e.length) (hu : LoopStepped e e s u)
      (hprev : u.prevCode.toNat = insertKey s.maxSize.toNat s.dictSize.toNat)

/-- A main-loop operation of a sound state always goes on. -/
theorem exec_loopWord_outcome {s : State} (hd : DictOk s) (hm : s.maxSize.toNat ≤ 4096) (hci : s.ci ≠ 0)
    (c : CodeWord) : ∃ u, exec (decodeLoopWord c) s = .next u ∧ LoopOutcome c s u := by
  have ⟨⟨hlow, _, hhigh⟩, _, _⟩ := hd
  rcases Nat.lt_or_ge s.prevCode.toNat s.dictSize.toNat with hp | hp
  · obtain ⟨pb, pr, hpe⟩ := hd.exists_live hp
    by_cases hc : present s c
    · obtain ⟨b, r, hce⟩ := hd.exists_live hc
      exact ⟨_, exec_known (knownForm_decodeLoopWord hci hhigh hc) hp hpe hc hce hm,
        .known _ _ hp hc (by simp) (loopStepped_knownEnd hm c (pb :: pr) (b :: r) b)
          (toNat_setWidth_code (hc.trans_le hhigh))⟩
    · exact ⟨_, exec_selfref (selfrefForm_decodeLoopWord hci hlow hc) hp hpe hm,
        .selfref _ hp hc (by simp) (loopStepped_selfrefEnd hm c (pb :: pr) _)
          (selfrefEnd_prevCode _ (writeEntry .prevEntry (pb :: pr) (latchWord c s)) (insertKey_lt hm))⟩
  · obtain ⟨body, hbody⟩ : ∃ body, exec (decodeLoopWord c) s = prelude c body s := by
      by_cases hc : present s c
      · exact ⟨_, exec_of_knownForm (knownForm_decodeLoopWord hci hhigh hc)⟩
      · exact ⟨_, exec_of_selfrefForm (selfrefForm_decodeLoopWord hci hlow hc)⟩
    exact ⟨_, hbody.trans (prelude_stale hp c body), .stale hp rfl⟩

theorem Sound.step_sFetch {s : State} {c : CodeWord} (hs : Sound s) (hf : s.fsm = .sFetch)
    (hr : readCode s s.ci = .next c) :
    ∃ u, step s = .next (afterOp .sFetch u) ∧ LoopOutcome c (consumeStart s) u := by
  obtain ⟨hci, -, -⟩ := hs.fetch_index hf
  obtain ⟨u, hu, ho⟩ := exec_loopWord_outcome (s := consumeStart s) (hs.dictOk_of_sFetch hf)
    (hs.max_le (by rw [hf]; rfl)) (Nat.ne_of_gt hci) c
  exact ⟨u, step_loopWord hf hr hu, ho⟩

/-- The same of a step that is given. -/
theorem Sound.step_sFetch_eq {s t : State} {c : CodeWord} (hs : Sound s) (hf : s.fsm = .sFetch)
    (hr : readCode s s.ci = .next c) (h : step s = .next t) :
    ∃ u, t = afterOp .sFetch u ∧ LoopOutcome c (consumeStart s) u := by
  obtain ⟨u, hu, ho⟩ := hs.step_sFetch hf hr
  exact ⟨u, Host.Outcome.next.inj (h.symm.trans hu), ho⟩

section Outcome

variable {c : CodeWord} {s u : State} (h : LoopOutcome c s u)
include h

/-- R122, R192: the only fault is that of an absent `prev_code`. -/
theorem LoopOutcome.fault_iff (hp : s.phase ≠ .fault) : u.phase = .fault ↔ s.dictSize.toNat ≤ s.prevCode.toNat := by
  cases h with
  | stale h hu => simp [hu, h]
  | known e new h hc hn hu | selfref e h hc hn hu =>
    rw [hu.status.1]
    exact iff_of_false hp (Nat.not_le.2 h)

/-- R123, R124: what the two cases have in common. -/
theorem LoopOutcome.raised_or_stepped :
    u = raiseFault .internalInconsistency s.prevCode.toNat (latchWord c s) ∨
    ∃ e new, 2 ≤ new.length ∧ LoopStepped e new s u := by
  cases h with
  | stale h hr => exact .inl hr
  | known e new h hc hn hs => exact .inr ⟨e, new, hn, hs⟩
  | selfref e h hc hn hs => exact .inr ⟨e, e, hn, hs⟩

theorem LoopOutcome.stepped (hu : u.phase ≠ .fault) : ∃ e new, 2 ≤ new.length ∧ LoopStepped e new s u :=
  h.raised_or_stepped.resolve_left fun hr => hu (hr ▸ raiseFault_phase _ _ _)

/-- R35 (d): `prev_code` is live after the step, but for a code word that the reset of the same step made absent. -/
theorem LoopOutcome.prev_live (hu : u.phase ≠ .fault) :
    u.prevCode.toNat < u.dictSize.toNat ↔ ¬ (full s ∧ present s c ∧ 257 ≤ c.toNat) := by
  cases h with
  | stale h hr => exact absurd (hr ▸ raiseFault_phase _ _ _) hu
  | known e new h hc hn hs hprev =>
    obtain ⟨-, -, hsize, -⟩ := hs.inserted
    rw [hprev, hsize]
    by_cases hfull : full s
    · rw [insertKey_full hfull]
      simp only [hfull, hc, true_and]
      omega
    · rw [insertKey, if_neg hfull]
      simp only [hfull, false_and, not_false_iff, iff_true]
      omega
  | selfref e h hc hn hs hprev =>
    obtain ⟨-, -, hsize, -⟩ := hs.inserted
    simp [hprev, hsize, hc]

/-- R125: the end of the loop, or the next code word. -/
theorem LoopOutcome.afterOp (hlt : s.ci < s.nCodes) (hu : (afterOp .sFetch u).phase ≠ .fault) :
    (Machine.afterOp .sFetch u).ci = s.ci + 1 ∧ ((Machine.afterOp .sFetch u).fsm = .sDone ↔ s.ci + 1 = s.nCodes) ∧
      ((Machine.afterOp .sFetch u).fsm = .sFetch ↔ s.ci + 1 < s.nCodes) := by
  have hu' := phase_ne_fault_of_afterOp hu
  obtain ⟨e, new, -, hs⟩ := h.stepped hu'
  obtain ⟨-, hn, -⟩ := hs.extractor
  have hfsm : (Machine.afterOp .sFetch u).fsm = if s.ci + 1 = s.nCodes then .sDone else .sFetch := by
    rw [afterOp_fsm hu', nextFsm, afterWord, hs.ci, hn]
  refine ⟨(afterOp_ci hu').trans hs.ci, ?_, ?_⟩
  · rw [hfsm]
    split <;> simp_all
  · rw [hfsm]
    split
    · next he => simp [he]
    · next he => exact iff_of_true rfl (by omega)

end Outcome

/-! ### The seed step -/

/-- R121: the seed step of a sound state goes on to the fault of an unknown seed, or appends the identity entry. -/
theorem Sound.step_sSeed {s : State} {c : CodeWord} (hs : Sound s) (hf : s.fsm = .sSeed)
    (hr : readCode s s.ci = .next c) :
    (256 ≤ c.toNat ∧ step s = .next (raiseFault .unknownSeedCode c.toNat (latchWord c (consumeStart s)))) ∨
    (c.toNat < 256 ∧
      step s = .next (afterOp .sSeed (seedFinish c (snap c.toNat) (latchWord c (consumeStart s))))) := by
  obtain ⟨hci, -, hsize⟩ := hs.seed_index hf
  obtain ⟨-, hid, -⟩ := hs.dict (by rw [hf]; rfl)
  rcases Nat.lt_or_ge c.toNat 256 with hc | hc
  · have hlive : c.toNat < (consumeStart s).dictSize.toNat := hc.trans_eq hsize.symm
    exact .inr ⟨hc, step_seedWord hf hci hr (seedStep_present hlive (hid _ hc))⟩
  · have habsent : (consumeStart s).dictSize.toNat ≤ c.toNat := hsize.trans_le hc
    rw [← afterOp_raiseFault .sSeed]
    exact .inl ⟨hc, step_seedWord hf hci hr (seedStep_absent habsent)⟩

end Sys2Proof.Machine

namespace Sys2Proof

open Machine

/-- Settles O34: of the three ends of a main-loop step only the prelude's is a fault. -/
theorem noOtherFaultInTheLoop : Obligations.NoOtherFaultInTheLoop := by
  intro s t hs hf h
  obtain ⟨c, hr⟩ := hs.readCode_sFetch hf
  obtain ⟨u, rfl, ho⟩ := hs.step_sFetch_eq hf hr h
  obtain ⟨-, hlt, -⟩ := hs.fetch_index hf
  refine ⟨afterOp_phase_eq_fault.trans (ho.fault_iff (by simp [hs.phase_sFetch hf])), fun ht => ho.afterOp hlt ht⟩

/-- Settles O27: a dictionary of 256 entries is full, and the key of a full dictionary is 256. -/
theorem smallestDictionary : Obligations.SmallestDictionary := by
  intro s t hs hf hm h ht
  have ⟨⟨hlow, _⟩, _⟩ := hs.dictOk_of_sFetch hf
  have hfull : full s := by rwa [full, hm]
  obtain ⟨hsize, hkey, -⟩ := resetStepLeavesOneEntry s t hs hf hfull h ht
  exact ⟨hfull, hsize, hkey⟩

/-- Settles O53: after the seed step `prev_code` is below 256, after a main-loop step it is the code word or the new key. -/
theorem prevCodeLive : Obligations.PrevCodeLive := by
  intro s t c hs hf hr h ht
  obtain hf | hf := hf
  · obtain ⟨-, -, hsize⟩ := hs.seed_index hf
    obtain ⟨-, h'⟩ | ⟨hc, h'⟩ := hs.step_sSeed hf hr
    · rw [Host.Outcome.next.inj (h.symm.trans h')] at ht
      exact absurd (raiseFault_phase ..) ht
    · rw [Host.Outcome.next.inj (h.symm.trans h')]
      simp only [afterOp_prevCode, afterOp_dictSize, seedFinish_prevCode, seedFinish_dictSize, latchWord_dictSize,
        consumeStart_dictSize, hf, toNat_setWidth_code (show c.toNat < 4096 by omega), hsize]
      simp [hc]
  · obtain ⟨u, rfl, ho⟩ := hs.step_sFetch_eq hf hr h
    have hlive := ho.prev_live (phase_ne_fault_of_afterOp ht)
    simpa [hf] using hlive

end Sys2Proof
end

section
/-! PROOF. A sound state goes on to a sound state (spec/10_state.md R31, R35, spec/20_memory.md R56,
spec/41_dictionary_engine.md R110): the states of the extractor, those of the decoder, and the finer machine. -/

open Sys2Proof.Statements

namespace Sys2Proof.Machine

/-! ### Cells that have a value -/

theorem Filled.zero {α : Type} (m : List (Nat × α)) : Filled 0 m := fun _ h => absurd h (Nat.not_lt_zero _)

theorem Filled.put {α : Type} {n : Nat} {m : List (Nat × α)} (h : Filled n m) (a : Nat) (v : α) :
    Filled n (cellsPut m a v) := by
  intro b hb
  rw [cellsRead_put]
  split
  · nofun
  · exact h b hb

theorem Filled.put_end {α : Type} {n : Nat} {m : List (Nat × α)} (h : Filled n m) (v : α) :
    Filled (n + 1) (cellsPut m n v) := by
  intro b hb
  rw [cellsRead_put]
  split
  · nofun
  · exact h b (by omega)

theorem Filled.append {n : Nat} {m : Memory} (h : Filled n m) (e : Str) :
    Filled (n + e.length) (memWriteBytes m n e) := by
  intro a ha
  rcases Nat.lt_or_ge a n with hlt | hge
  · rw [memWriteBytes_below _ _ _ _ hlt]
    exact h a hlt
  · obtain ⟨j, rfl⟩ := Nat.exists_eq_add_of_le hge
    rw [memWriteBytes_inside _ _ _ _ (by omega), List.getElem?_eq_getElem (by omega)]
    nofun

/-! ### The schedule of `dict_size` -/

theorem LegalMax.ge {m : Size} (h : LegalMax m) : 256 ≤ m.toNat := by
  obtain ⟨e, he, -, hm⟩ := h
  exact (Nat.pow_le_pow_right (by omega) he).trans_eq hm.symm

/-- R110: one main-loop step takes `dict_size` to its next value. -/
theorem schedule_succ {m ci : Nat} (hm : 256 ≤ m) (hci : 1 ≤ ci) :
    schedule m (ci + 1) = insertKey m (schedule m ci) + 1 := by
  rw [schedule, if_neg (by omega)]
  rcases Nat.eq_or_lt_of_le hm with rfl | hlt
  · have hs : 256 ≤ schedule 256 ci := by
      unfold schedule
      split
      · exact le_rfl
      · simp
    rw [insertKey_full hs, if_pos le_rfl]
  · rw [if_neg (by omega)]
    rcases Nat.eq_or_lt_of_le hci with rfl | hci
    · simp [schedule, insertKey]
    · have hr : (ci - 2) % (m - 256) < m - 256 := Nat.mod_lt _ (by omega)
      rw [schedule, if_neg (by omega), if_neg (by omega), insertKey, show ci + 1 - 2 = ci - 2 + 1 by omega,
        ← Nat.mod_add_mod]
      rcases Nat.eq_or_lt_of_le (Nat.succ_le_of_lt hr) with he | hl
      · rw [← Nat.succ_eq_add_one, he, Nat.mod_self, if_pos (by omega)]
      · rw [Nat.mod_eq_of_lt hl, if_neg (by omega)]
        omega

/-- R35 (a) to (c) after the insertion of R108. -/
theorem DictOk.inserted {s t : State} {e : Str} (h : DictOk s) (hm : LegalMax s.maxSize) (ht : t.maxSize = s.maxSize)
    (he : 2 ≤ e.length) (hi : Inserted (insertKey s.maxSize.toNat s.dictSize.toNat) e s t) : DictOk t := by
  obtain ⟨⟨hlow, hmax, hhigh⟩, hid, hlive⟩ := h
  obtain ⟨hentry, hother, hsize, -⟩ := hi
  have hkey : 256 ≤ insertKey s.maxSize.toNat s.dictSize.toNat ∧
      insertKey s.maxSize.toNat s.dictSize.toNat ≤ s.dictSize.toNat ∧
      (insertKey s.maxSize.toNat s.dictSize.toNat = 256 ∨
        insertKey s.maxSize.toNat s.dictSize.toNat < s.maxSize.toNat) := by
    unfold insertKey
    split <;> omega
  have hle := hm.le
  rw [DictOk, ht]
  refine ⟨by omega, fun k hk => by rw [hother k (by omega), hid k hk], fun k hk hlt => ?_⟩
  by_cases hkk : k = insertKey s.maxSize.toNat s.dictSize.toNat
  · exact ⟨e, hkk ▸ hentry, he⟩
  · rw [hother k hkk]
    exact hlive k hk (by omega)

/-! ### How far a run is -/

/-- What a sound state says besides its spaces, its state machines, `STATUS` and the host's part. -/
structure Progress (s : State) : Prop where
  extract : ExtractOk s
  codes : waiting s = false → Filled s.nCodes s.codes
  maxSize : (s.fsm = .sInit ∨ s.fsm.decoding = true) → LegalMax s.maxSize
  dict : s.fsm.decoding = true → DictOk s
  index : IndexOk s
  work : WorkOk s
  output : s.phase ≠ .fault → Filled s.outLen s.outMem

theorem Progress.sound {s : State} (h : Progress s) (hc : Canonical s) (hk : ControlOk s ∧ StatusOk s)
    (hi : Filled s.inLen s.inMem) : Sound s :=
  { canonical := hc, control := hk.1, status := hk.2, input := hi, extract := h.extract, codes := h.codes,
    maxSize := h.maxSize, dict := h.dict, index := h.index, work := h.work, output := h.output }

/-- Of a step of a sound state only the progress is left to show. -/
theorem Sound.goes_on {s t : State} (hs : Sound s) (h : step s = .next t) (hp : Progress t) :
    ∃ t, step s = .next t ∧ Sound t := by
  obtain ⟨-, -, hlen, hmem⟩ := step_host h
  have hin : Filled t.inLen t.inMem := by
    rw [hlen, hmem]
    exact hs.input
  exact ⟨t, h, hp.sound (step_canonical hs.canonical h) (step_statusKept hs.control hs.status h) hin⟩

theorem extractOk_iff {s : State} (h : s.fsm.extracted = true) : ExtractOk s ↔ s.nCodes = codeCount s.inLen := by
  unfold ExtractOk
  split
  · next hf => rw [hf] at h; cases h
  · next hf => rw [hf] at h; cases h
  · next hf => rw [hf] at h; cases h
  · next hf => rw [hf] at h; cases h
  · simp [h]

theorem Fsm.decoding_of_inLoop {f : Fsm} (h : f.inLoop = true) : f.decoding = true := by
  cases f with
  | sSeed => rfl
  | _ => exact h

section NotDecoding

variable {s : State} (h : s.fsm.decoding = false)
include h

theorem indexOk_of_not_decoding : IndexOk s := by
  unfold IndexOk
  split
  · next hf => rw [hf] at h; cases h
  · next hf => rw [hf] at h; cases h
  · next hf => rw [hf] at h; cases h
  · exact fun hl => absurd (Fsm.decoding_of_inLoop hl) (by simp [h])

theorem workOk_of_not_decoding : WorkOk s := by
  unfold WorkOk
  split
  · next hf => rw [hf] at h; cases h
  · next hf => rw [hf] at h; cases h
  · next hf => rw [hf] at h; cases h
  · trivial

/-- Outside the decoder the progress is that of the extractor. -/
theorem progress_of_not_decoding (hm : s.fsm = .sInit → LegalMax s.maxSize) (hx : ExtractOk s)
    (hc : waiting s = false → Filled s.nCodes s.codes) (ho : s.phase ≠ .fault → Filled s.outLen s.outMem) :
    Progress s where
  extract := hx
  codes := hc
  maxSize := fun hf => hf.elim hm fun hd => absurd hd (by simp [h])
  dict := fun hd => absurd hd (by simp [h])
  index := indexOk_of_not_decoding h
  work := workOk_of_not_decoding h
  output := ho

end NotDecoding

theorem progress_raiseFault (f : RunFault) (info : Nat) (s : State) : Progress (raiseFault f info s) :=
  progress_of_not_decoding rfl nofun nofun nofun fun h => absurd rfl h

theorem extractOk_sDone {s : State} (h : s.fsm = .sDone) : ExtractOk s := by
  simp [ExtractOk, h, Fsm.extracted, Fsm.decoding, Fsm.inLoop]

/-- The transition of R156 where only the state machine and the phase change. -/
theorem progress_afterOp {f : Fsm} {t : State} (hp : t.phase ≠ .fault) (hi : nextCi f t = t.ci)
    (hg : nextGrow f t = t.grow) (h : Progress (enter (nextFsm f t) t)) : Progress (afterOp f t) := by
  rw [afterOp_next hp, hi, hg]
  exact h

/-! ### Waiting, and the start of a run -/

theorem progress_begun (s : State) : Progress (begun s) :=
  progress_of_not_decoding rfl nofun ⟨rfl, rfl⟩ (fun _ => Filled.zero _) fun _ => Filled.zero _

/-- Whatever the earlier run was, a start with a buffer in `IN` makes a sound state (R158). -/
theorem sound_begun {s : State} (hc : Canonical s) (hi : Filled s.inLen s.inMem) : Sound (begun s) :=
  (progress_begun s).sound hc.consumeStart.beginRun
    ⟨controlOk_of_phase nofun rfl fun _ => rfl, (statusOk_of_busy rfl).2 ⟨rfl, rfl⟩⟩ hi

theorem Sound.step_waiting {s : State} (hs : Sound s) (hw : waiting s = true) : ∃ t, step s = .next t ∧ Sound t := by
  cases hst : s.start with
  | false => exact ⟨s, step_wait hw hst, hs⟩
  | true =>
    cases hsrc : s.srcOk with
    | true => exact hs.goes_on (step_start_ok hs.control hw hst hsrc) (progress_begun s)
    | false => exact hs.goes_on (step_start_unavailable hs.control hw hst hsrc) (progress_raiseFault ..)

/-! ### The extractor -/

/-- A state of the extractor, or the configuration check after it. -/
theorem progress_of_extracting {s : State} (hd : s.fsm.decoding = false) (hi : s.fsm ≠ .sInit) (hx : ExtractOk s)
    (hc : Filled s.nCodes s.codes) (ho : Filled s.outLen s.outMem) : Progress s :=
  progress_of_not_decoding hd (fun h => absurd h hi) hx (fun _ => hc) fun _ => ho

section Busy

variable {s : State} (hs : Sound s) (hq : s.fsm.phase.quiet = false)
include hs hq

theorem Sound.phase_of_busy : s.phase = s.fsm.phase :=
  hs.control.phase_eq fun h => by simp [h, Fsm.phase, Phase.quiet] at hq

theorem Sound.not_waiting : waiting s = false := by
  rw [hs.control.waiting_eq, hs.phase_of_busy hq, hq]

theorem Sound.codes_filled : Filled s.nCodes s.codes := hs.codes (hs.not_waiting hq)

theorem Sound.phase_ne_fault : s.phase ≠ .fault := fun h => by
  rw [← hs.phase_of_busy hq, h] at hq
  cases hq

theorem Sound.out_filled : Filled s.outLen s.outMem := hs.output (hs.phase_ne_fault hq)

end Busy

theorem Sound.exists_readIn {s : State} (hs : Sound s) {a : Nat} (ha : a < s.inLen) : ∃ b, readIn s a = .next b := by
  obtain ⟨b, hb⟩ := Filled.read hs.input ha
  exact ⟨b, readIn_eq_next.2 ⟨ha, hb⟩⟩

theorem Sound.exists_readPair {s : State} (hs : Sound s) {a : Nat} (ha : a + 1 < s.inLen) :
    ∃ hi lo, readPair s a = .next (hi, lo) := by
  obtain ⟨hi, hhi⟩ := hs.exists_readIn (Nat.lt_of_succ_lt ha)
  obtain ⟨lo, hlo⟩ := hs.exists_readIn ha
  exact ⟨hi, lo, readPair_eq_next.2 ⟨hhi, hlo⟩⟩

/-- The end of the extraction: the configuration check comes next. -/
theorem progress_sCfg {t : State} (hn : t.nCodes = codeCount t.inLen) (hc : Filled t.nCodes t.codes)
    (ho : Filled t.outLen t.outMem) : Progress (enter .sCfg t) :=
  progress_of_extracting rfl nofun ((extractOk_iff rfl).2 hn) hc ho

theorem Sound.step_sXsel {s : State} (hs : Sound s) (hf : s.fsm = .sXsel) : ∃ t, step s = .next t ∧ Sound t := by
  have hq : s.fsm.phase.quiet = false := by rw [hf]; rfl
  have hout := hs.out_filled hq
  obtain ⟨hbi, hn⟩ : s.bi = 0 ∧ s.nCodes = 0 := by simpa [ExtractOk, hf] using hs.extract
  have hcodes : Filled s.nCodes s.codes := hn ▸ Filled.zero _
  obtain h0 | h1 | h2 | h3 : s.inLen = 0 ∨ s.inLen = 1 ∨ s.inLen = 2 ∨ 3 ≤ s.inLen := by omega
  · refine hs.goes_on (step_xEmpty hf h0) (progress_afterOp (hs.phase_ne_fault hq) rfl rfl ?_)
    exact progress_sCfg (by simp [h0, codeCount]) (Filled.zero _) hout
  · exact hs.goes_on (step_xOne hf h1) (progress_raiseFault ..)
  · exact hs.goes_on (step_toPair hf h2) (progress_of_extracting rfl nofun h2 hcodes hout)
  · refine hs.goes_on (step_toWalk hf h3) (progress_of_extracting rfl nofun ⟨?_, ?_, ?_⟩ hcodes hout)
    · simp [hbi]
    · simpa [hbi] using h3
    · simp [hbi, hn]

theorem Sound.step_sXpair {s : State} (hs : Sound s) (hf : s.fsm = .sXpair) : ∃ t, step s = .next t ∧ Sound t := by
  have hq : s.fsm.phase.quiet = false := by rw [hf]; rfl
  have hlen : s.inLen = 2 := by simpa [ExtractOk, hf] using hs.extract
  obtain ⟨hi, lo, hr⟩ := hs.exists_readPair (a := 0) (by omega)
  refine hs.goes_on (step_xPair hf hr) (progress_afterOp (hs.phase_ne_fault hq) rfl rfl ?_)
  exact progress_sCfg (by simp [hlen, codeCount]) ((Filled.zero _).put_end _) (hs.out_filled hq)

theorem Sound.step_sXwalk {s : State} (hs : Sound s) (hf : s.fsm = .sXwalk) : ∃ t, step s = .next t ∧ Sound t := by
  have hq : s.fsm.phase.quiet = false := by rw [hf]; rfl
  obtain ⟨hmod, hlen, hn⟩ : s.bi % 3 = 0 ∧ s.bi + 3 ≤ s.inLen ∧ s.nCodes = 2 * (s.bi / 3) := by
    simpa [ExtractOk, hf] using hs.extract
  obtain ⟨b0, h0⟩ := hs.exists_readIn (a := s.bi) (by omega)
  obtain ⟨b1, b2, h1⟩ := hs.exists_readPair (a := s.bi + 1) (by omega)
  refine hs.goes_on (step_xTriple hf h0 h1) (progress_afterOp (hs.phase_ne_fault hq) rfl rfl ?_)
  have hcodes := ((hs.codes_filled hq).put_end (zext16 (codeA b0 b1))).put_end (zext16 (codeB b1 b2))
  have hout := hs.out_filled hq
  generalize ht : storeTriple (codeA b0 b1) (codeB b1 b2) (consumeStart s) = t
  have hbi : t.bi = s.bi + 3 := by simp [← ht]
  have hin : t.inLen = s.inLen := by simp [← ht]
  have hk : t.nCodes = s.nCodes + 2 := by simp [← ht]
  have htc : Filled t.nCodes t.codes := ht ▸ hcodes
  have hto : Filled t.outLen t.outMem := ht ▸ hout
  by_cases hnext : t.bi + 3 ≤ t.inLen
  · rw [nextFsm, if_pos hnext]
    exact progress_of_extracting rfl nofun
      ⟨show t.bi % 3 = 0 by omega, hnext, show t.nCodes = 2 * (t.bi / 3) by omega⟩ htc hto
  · rw [nextFsm, if_neg hnext]
    exact progress_of_extracting rfl nofun
      ⟨show 3 ≤ t.inLen by omega, show t.bi = 3 * (t.inLen / 3) by omega,
        show t.nCodes = 2 * (t.inLen / 3) by omega⟩ htc hto

theorem Sound.step_sXtail {s : State} (hs : Sound s) (hf : s.fsm = .sXtail) : ∃ t, step s = .next t ∧ Sound t := by
  have hq : s.fsm.phase.quiet = false := by rw [hf]; rfl
  have hp := hs.phase_ne_fault hq
  have hcodes := hs.codes_filled hq
  have hout := hs.out_filled hq
  obtain ⟨h3, hbi, hn⟩ : 3 ≤ s.inLen ∧ s.bi = 3 * (s.inLen / 3) ∧ s.nCodes = 2 * (s.inLen / 3) := by
    simpa [ExtractOk, hf] using hs.extract
  have hcount : s.nCodes = codeCount s.inLen := by rw [codeCount, if_neg (by omega), hn]
  obtain hm | hm | hm : s.inLen % 3 = 0 ∨ s.inLen % 3 = 1 ∨ s.inLen % 3 = 2 := by omega
  · exact hs.goes_on (step_noTail hf hm) (progress_sCfg (t := consumeStart s) hcount hcodes hout)
  · obtain ⟨hi, lo, hr⟩ := hs.exists_readPair (a := s.inLen - 2) (by omega)
    obtain ⟨n, hk⟩ := Nat.exists_eq_add_of_le' (show 1 ≤ s.nCodes by omega)
    refine hs.goes_on (step_xTail1 hf hm (by omega) hr hk) (progress_afterOp hp rfl rfl ?_)
    exact progress_sCfg hcount (hcodes.put _ _) hout
  · refine hs.goes_on (step_xTail2 hf hm) (progress_afterOp hp rfl rfl ?_)
    exact progress_sCfg (t := consumeStart s) hcount hcodes hout

/-! ### The states around the decoder -/

/-- R153 at a legal exponent. -/
theorem step_sCfg_legal {s : State} (hf : s.fsm = .sCfg) (h1 : 8 ≤ s.dictExp.toNat) (h2 : s.dictExp.toNat ≤ 12) :
    step s = .next (afterOp .sCfg (latchMax s.dictExp { consumeStart s with phase := .config })) := by
  have hs : select s = .next (.op .runCfgchk) := by simp [select, hf]
  rw [step_of_op hs, exec, execRunCfgchk_legal (s := consumeStart s) h1 h2, hf]
  rfl

/-- R153 at any other value of the field. -/
theorem step_sCfg_illegal {s : State} (hf : s.fsm = .sCfg) (h : s.dictExp.toNat < 8 ∨ 12 < s.dictExp.toNat) :
    step s =
      .next (raiseFault .configurationError s.dictExp.toNat { consumeStart s with phase := .config }) := by
  have hs : select s = .next (.op .runCfgchk) := by simp [select, hf]
  rw [step_of_op hs, exec, execRunCfgchk_illegal (s := consumeStart s) h]
  exact congrArg Host.Outcome.next (afterOp_raiseFault ..)

theorem step_sInit {s : State} (hf : s.fsm = .sInit) :
    step s = .next (afterOp .sInit (dictInit (consumeStart s))) := by
  have hs : select s = .next (.op .dictInit) := by simp [select, hf]
  rw [step_of_op hs, hf]
  rfl

/-- R155. -/
theorem step_sDone {s : State} (hf : s.fsm = .sDone) (hp : s.phase ≠ .done) :
    step s = .next { outCommit (consumeStart s) with phase := .done, fsm := .sDone } := by
  have hs : select s = .next (.op .runDone) := by simp [select, hf, hp]
  rw [step_of_op hs, hf]
  rfl

theorem legalMax_latchMax {e : BitVec 4} (h1 : 8 ≤ e.toNat) (h2 : e.toNat ≤ 12) (s : State) :
    LegalMax (latchMax e s).maxSize :=
  ⟨e.toNat, h1, h2, latchMax_toNat h2 s⟩

theorem Sound.step_sCfg {s : State} (hs : Sound s) (hf : s.fsm = .sCfg) : ∃ t, step s = .next t ∧ Sound t := by
  have hq : s.fsm.phase.quiet = false := by rw [hf]; rfl
  have hn : s.nCodes = codeCount s.inLen := (extractOk_iff (by rw [hf]; rfl)).1 hs.extract
  by_cases h : s.dictExp.toNat < 8 ∨ 12 < s.dictExp.toNat
  · exact hs.goes_on (step_sCfg_illegal hf h) (progress_raiseFault ..)
  · have h12 : s.dictExp.toNat ≤ 12 := by omega
    refine hs.goes_on (step_sCfg_legal hf (by omega) h12) (progress_afterOp nofun rfl rfl ?_)
    exact progress_of_not_decoding rfl (fun _ => legalMax_latchMax (by omega) h12 s) ((extractOk_iff rfl).2 hn)
      (fun _ => hs.codes_filled hq) fun _ => hs.out_filled hq

/-- The end of a run, before and after RUN.DONE. -/
theorem progress_sDone {s : State} (hf : s.fsm = .sDone) (hc : Filled s.nCodes s.codes)
    (ho : Filled s.outLen s.outMem) : Progress s :=
  progress_of_extracting (by rw [hf]; rfl) (by simp [hf]) (extractOk_sDone hf) hc ho

theorem Sound.step_sDone {s : State} (hs : Sound s) (hf : s.fsm = .sDone) : ∃ t, step s = .next t ∧ Sound t := by
  by_cases hp : s.phase = .done
  · exact hs.step_waiting (by simp [waiting, hf, hp])
  · have hc := hs.codes (by simp [waiting, hf, hp])
    have ho := hs.output (by
      obtain h | h | h | h := hs.control.phase_sDone hf <;> simp [h])
    exact hs.goes_on (Machine.step_sDone hf hp) (progress_sDone rfl hc ho)

/-! ### The decoder -/

/-- What the states between DICT.INIT and the end of a run have in common. -/
structure Decoding (s : State) : Prop where
  count : s.nCodes = codeCount s.inLen
  codes : Filled s.nCodes s.codes
  maxSize : LegalMax s.maxSize
  dict : DictOk s
  output : Filled s.outLen s.outMem

theorem Fsm.busy_of_decoding {f : Fsm} (h : f.decoding = true) : f.phase.quiet = false := by
  cases f with
  | sIdle | sXsel | sXpair | sXwalk | sXtail | sCfg | sInit | sDone | sFault => cases h
  | _ => rfl

theorem Fsm.extracted_of_decoding {f : Fsm} (h : f.decoding = true) : f.extracted = true := by
  cases f with
  | sCfg | sInit => rfl
  | _ => exact h

theorem Sound.toDecoding {s : State} (hs : Sound s) (h : s.fsm.decoding = true) : Decoding s where
  count := (extractOk_iff (Fsm.extracted_of_decoding h)).1 hs.extract
  codes := hs.codes_filled (Fsm.busy_of_decoding h)
  maxSize := hs.maxSize (.inr h)
  dict := hs.dict h
  output := hs.out_filled (Fsm.busy_of_decoding h)

section Decoding

variable {s : State} (h : Decoding s)
include h

theorem Decoding.progress (hd : s.fsm.decoding = true) (hi : IndexOk s) (hw : WorkOk s) : Progress s where
  extract := (extractOk_iff (Fsm.extracted_of_decoding hd)).2 h.count
  codes := fun _ => h.codes
  maxSize := fun _ => h.maxSize
  dict := fun _ => h.dict
  index := hi
  work := hw
  output := fun _ => h.output

theorem Decoding.enter (f : Fsm) : Decoding (enter f s) := ⟨h.count, h.codes, h.maxSize, h.dict, h.output⟩

theorem Decoding.loopStepped {e new : Str} {u : State} (hn : 2 ≤ new.length) (hu : LoopStepped e new s u) :
    Decoding u := by
  obtain ⟨-, -, -, hlen, -⟩ := hu.host
  obtain ⟨-, hk, hcodes⟩ := hu.extractor
  exact {
    count := by rw [hk, hlen, h.count]
    codes := by
      rw [hk, hcodes]
      exact h.codes
    maxSize := hu.maxSize ▸ h.maxSize
    dict := h.dict.inserted h.maxSize hu.maxSize hn hu.inserted
    output := by
      rw [hu.outLen, hu.outMem]
      exact h.output.append e }

/-- R125, R110: at the end of a decoder step. -/
theorem Decoding.progress_afterWord (h1 : 1 ≤ s.ci) (hle : s.ci ≤ s.nCodes)
    (hsize : s.dictSize.toNat = schedule s.maxSize.toNat s.ci) : Progress (Machine.enter (afterWord s) s) := by
  by_cases he : s.ci = s.nCodes
  · rw [afterWord, if_pos he]
    exact progress_sDone rfl h.codes h.output
  · rw [afterWord, if_neg he]
    exact (h.enter .sFetch).progress rfl (fun _ => ⟨h1, Nat.lt_of_le_of_ne hle he, hsize⟩) trivial

end Decoding

/-- R100. -/
theorem dictOk_dictInit {s : State} : DictOk (dictInit s) := by
  have hsize : (dictInit s).dictSize.toNat = 256 := congrArg BitVec.toNat (dictInit_dictSize s)
  refine ⟨by omega, fun k hk => ?_, fun k hk hlt => by omega⟩
  rw [dictInit_dict, dictRead_copySnap, if_pos hk]

theorem Sound.step_sInit {s : State} (hs : Sound s) (hf : s.fsm = .sInit) : ∃ t, step s = .next t ∧ Sound t := by
  have hq : s.fsm.phase.quiet = false := by rw [hf]; rfl
  refine hs.goes_on (Machine.step_sInit hf) ?_
  have hd : Decoding (dictInit (consumeStart s)) := {
    count := (extractOk_iff (s := s) (by rw [hf]; rfl)).1 hs.extract
    codes := hs.codes_filled hq
    maxSize := hs.maxSize (.inl hf)
    dict := dictOk_dictInit
    output := hs.out_filled hq }
  have hp : (dictInit (consumeStart s)).phase ≠ .fault := hs.phase_ne_fault hq
  have hsize : (dictInit (consumeStart s)).dictSize = 256 := dictInit_dictSize _
  have hg : (dictInit (consumeStart s)).grow = .gIdle := hs.control.2 (by simp [hf])
  generalize dictInit (consumeStart s) = u at hd hp hsize
  rw [afterOp_next hp, nextFsm]
  by_cases hn : u.nCodes = 0
  · rw [if_pos hn]
    exact progress_sDone rfl hd.codes hd.output
  · rw [if_neg hn]
    exact Decoding.progress ⟨hd.count, hd.codes, hd.maxSize, hd.dict, hd.output⟩ rfl
      ⟨rfl, Nat.pos_of_ne_zero hn, congrArg BitVec.toNat hsize⟩ trivial

theorem Sound.step_sSeed_goes_on {s : State} (hs : Sound s) (hf : s.fsm = .sSeed) :
    ∃ t, step s = .next t ∧ Sound t := by
  have hdec : s.fsm.decoding = true := by rw [hf]; rfl
  have hd := hs.toDecoding hdec
  obtain ⟨hci, hpos, hsize⟩ := hs.seed_index hf
  obtain ⟨c, hr⟩ := exists_readCode hd.codes (i := s.ci) (by omega)
  obtain ⟨-, h⟩ | ⟨-, h⟩ := hs.step_sSeed hf hr
  · exact hs.goes_on h (progress_raiseFault ..)
  · have hu : Decoding (seedFinish c (snap c.toNat) (latchWord c (consumeStart s))) :=
      ⟨hd.count, hd.codes, hd.maxSize, hd.dict, hd.output.append _⟩
    exact hs.goes_on h (progress_afterOp (hs.phase_ne_fault (Fsm.busy_of_decoding hdec)) rfl rfl
      (hu.progress_afterWord le_rfl hpos hsize))

/-- R110 for a whole main-loop step. -/
theorem Decoding.progress_loopStepped {s u : State} {e new : Str} (h : Decoding s) (hn : 2 ≤ new.length)
    (hu : LoopStepped e new s u) (h1 : 1 ≤ s.ci) (hlt : s.ci < s.nCodes)
    (hsize : s.dictSize.toNat = schedule s.maxSize.toNat s.ci) : Progress (Machine.enter (afterWord u) u) := by
  obtain ⟨-, hk, -⟩ := hu.extractor
  obtain ⟨-, -, hins, -⟩ := hu.inserted
  refine (h.loopStepped hn hu).progress_afterWord ?_ ?_ ?_
  · rw [hu.ci]
    omega
  · rw [hu.ci, hk]
    omega
  · rw [hins, hu.ci, hu.maxSize, schedule_succ h.maxSize.ge h1, hsize]

theorem Sound.step_sFetch_goes_on {s : State} (hs : Sound s) (hf : s.fsm = .sFetch) :
    ∃ t, step s = .next t ∧ Sound t := by
  have hdec : s.fsm.decoding = true := by rw [hf]; rfl
  have hd := hs.toDecoding hdec
  obtain ⟨h1, hlt, hsize⟩ := hs.fetch_index hf
  obtain ⟨c, hr⟩ := hs.readCode_sFetch hf
  obtain ⟨u, h, ho⟩ := hs.step_sFetch hf hr
  obtain hu | ⟨e, new, hn, hl⟩ := ho.raised_or_stepped
  · rw [hu, afterOp_raiseFault] at h
    exact hs.goes_on h (progress_raiseFault ..)
  · have hd' : Decoding (consumeStart s) := ⟨hd.count, hd.codes, hd.maxSize, hd.dict, hd.output⟩
    have hp : u.phase ≠ .fault := by
      rw [hl.status.1]
      exact hs.phase_ne_fault (Fsm.busy_of_decoding hdec)
    exact hs.goes_on h (progress_afterOp hp rfl rfl (hd'.progress_loopStepped hn hl h1 hlt hsize))

/-! ### The finer states of a main-loop step -/

/-- Where a main-loop step is before the dictionary grows (R15, R110). -/
theorem Sound.loop_index {s : State} (hs : Sound s) (hf : s.fsm = .sClass ∨ ∃ known, s.fsm = .sEmit known) :
    1 ≤ s.ci ∧ s.ci < s.nCodes ∧ s.dictSize.toNat = schedule s.maxSize.toNat s.ci := by
  obtain hf | ⟨known, hf⟩ := hf <;> simpa [IndexOk, hf, Fsm.inLoop] using hs.index

/-- Case A and Case B form strings that are not empty. -/
theorem exists_classWork {s : State} (hd : DictOk s) (hp : s.work.prevEntry ≠ []) :
    ∃ p, classWork s = .next p ∧ p.2.emitted ≠ [] ∧ 2 ≤ p.2.newEntry.length := by
  obtain ⟨pb, pr, hprev⟩ := List.exists_cons_of_ne_nil hp
  unfold classWork
  by_cases hc : present s s.work.c
  · obtain ⟨b, r, hce⟩ := hd.exists_live hc
    have hl : lookup s s.work.c.toNat = .next (b :: r) := lookup_eq_next.2 ⟨hc, hce⟩
    rw [if_pos hc, hl]
    exact ⟨_, rfl, by simp, by simp [hprev]⟩
  · have hfirst : first s.work.prevEntry = .next pb := first_eq_next.2 ⟨pr, hprev⟩
    rw [if_neg hc, hfirst]
    exact ⟨_, rfl, by simp, by simp [hprev]⟩

theorem Sound.step_sClass_goes_on {s : State} (hs : Sound s) (hf : s.fsm = .sClass) :
    ∃ t, step s = .next t ∧ Sound t := by
  have hd := hs.toDecoding (by rw [hf]; rfl)
  have hprev : s.work.prevEntry ≠ [] := by simpa [WorkOk, hf] using hs.work
  obtain ⟨p, hp, hemitted, hnew⟩ := exists_classWork hd.dict hprev
  have h : step s = .next (consumeStart (enter (.sEmit p.1) { s with work := p.2 })) := by
    rw [step_sClass hf, hp, andThen_next]
  refine hs.goes_on h (Decoding.progress ?_ rfl (fun _ => hs.loop_index (.inl hf)) ⟨hemitted, hnew⟩)
  exact ⟨hd.count, hd.codes, hd.maxSize, hd.dict, hd.output⟩

theorem step_sEmit {s : State} {known : Bool} (hf : s.fsm = .sEmit known) :
    step s = .next (afterOp (.sEmit known) (outAppend s.work.emitted (consumeStart s))) := by
  have hs : select s = .next (.op (.outAppend s.work.emitted)) := by simp [select, hf]
  rw [step_of_op hs, hf]
  rfl

/-- `S_GROW` before the overflow-reset machine has done its operations. -/
theorem indexOk_sGrow {s : State} {known : Bool} (hf : s.fsm = .sGrow known) (hr : s.grow ≠ .gReset)
    (hw : s.grow ≠ .gWrite)
    (h : 1 ≤ s.ci ∧ s.ci < s.nCodes ∧ s.dictSize.toNat = schedule s.maxSize.toNat s.ci) : IndexOk s := by
  cases hg : s.grow with
  | gReset => exact absurd hg hr
  | gWrite => exact absurd hg hw
  | _ => simpa [IndexOk, hf, hg] using h

theorem Sound.step_sEmit_goes_on {s : State} {known : Bool} (hs : Sound s) (hf : s.fsm = .sEmit known) :
    ∃ t, step s = .next t ∧ Sound t := by
  have hdec : s.fsm.decoding = true := by rw [hf]; rfl
  have hd := hs.toDecoding hdec
  obtain ⟨-, hnew⟩ : s.work.emitted ≠ [] ∧ 2 ≤ s.work.newEntry.length := by simpa [WorkOk, hf] using hs.work
  have hg : s.grow = .gIdle := hs.control.2 (by simp [hf])
  have hu : Decoding (outAppend s.work.emitted (consumeStart s)) :=
    ⟨hd.count, hd.codes, hd.maxSize, hd.dict, hd.output.append _⟩
  refine hs.goes_on (step_sEmit hf) (progress_afterOp (hs.phase_ne_fault (Fsm.busy_of_decoding hdec)) rfl rfl ?_)
  refine (hu.enter (.sGrow known)).progress rfl (indexOk_sGrow rfl ?_ ?_ (hs.loop_index (.inr ⟨known, hf⟩))) hnew
  · simp [hg]
  · simp [hg]

section Grow

variable {s : State} {known : Bool} (hf : s.fsm = .sGrow known)
include hf

theorem step_gIdle (hg : s.grow = .gIdle) : step s = .next (consumeStart { s with grow := .gCheck }) :=
  step_of_move (by simp [select, selectGrow, hf, hg])

theorem step_gCheck (hg : s.grow = .gCheck) :
    step s = .next (consumeStart { s with grow := if full s then .gReset else .gWrite }) :=
  step_of_move (by simp [select, selectGrow, hf, hg])

theorem step_gReset (hg : s.grow = .gReset) :
    step s = .next (afterOp (.sGrow known) (dictReset (consumeStart s))) := by
  have hs : select s = .next (.op .dictReset) := by simp [select, selectGrow, hf, hg]
  rw [step_of_op hs, hf]
  rfl

theorem step_gWrite (hg : s.grow = .gWrite) :
    step s = andThen (dictInsert s.work.newEntry (consumeStart s)) fun t => .next (afterOp (.sGrow known) t) := by
  have hs : select s = .next (.op (.dictInsert s.work.newEntry)) := by simp [select, selectGrow, hf, hg]
  rw [step_of_op hs, hf]
  rfl

end Grow

theorem insertKey_insertKey (m n : Nat) : insertKey m (insertKey m n) = insertKey m n := by
  unfold insertKey
  by_cases h : m ≤ n <;> simp [h]

theorem DictOk.dictReset {s : State} (h : DictOk s) : DictOk (dictReset s) := by
  obtain ⟨-, hid, -⟩ := h
  have hsize : (Machine.dictReset s).dictSize.toNat = 256 := rfl
  exact ⟨by omega, hid, fun k hk hlt => by omega⟩

section GrowSound

variable {s : State} {known : Bool} (hs : Sound s) (hf : s.fsm = .sGrow known)
include hs hf

theorem Sound.decoding_sGrow : Decoding s := hs.toDecoding (by rw [hf]; rfl)

theorem Sound.phase_sGrow : s.phase = .loop :=
  (hs.control.phase_eq (by simp [hf])).trans (congrArg Fsm.phase hf)

theorem Sound.newEntry_sGrow : 2 ≤ s.work.newEntry.length := by simpa [WorkOk, hf] using hs.work

/-- R109: a transition of the overflow-reset machine without an operation. -/
theorem Sound.progress_regrow (g : GrowFsm) (hi : IndexOk { s with grow := g }) :
    Progress (consumeStart { s with grow := g }) := by
  have hd := hs.decoding_sGrow hf
  have hdec : s.fsm.decoding = true := by rw [hf]; rfl
  have hw : WorkOk s := hs.work
  have hd' : Decoding (consumeStart { s with grow := g }) := ⟨hd.count, hd.codes, hd.maxSize, hd.dict, hd.output⟩
  exact hd'.progress hdec hi hw

theorem Sound.index_before_check (hg : s.grow = .gIdle ∨ s.grow = .gCheck) :
    1 ≤ s.ci ∧ s.ci < s.nCodes ∧ s.dictSize.toNat = schedule s.maxSize.toNat s.ci := by
  obtain hg | hg := hg <;> simpa [IndexOk, hf, hg] using hs.index

theorem Sound.step_gIdle_goes_on (hg : s.grow = .gIdle) : ∃ t, step s = .next t ∧ Sound t :=
  hs.goes_on (step_gIdle hf hg)
    (hs.progress_regrow hf .gCheck (indexOk_sGrow hf nofun nofun (hs.index_before_check hf (.inl hg))))

theorem Sound.step_gCheck_goes_on (hg : s.grow = .gCheck) : ∃ t, step s = .next t ∧ Sound t := by
  obtain ⟨h1, hlt, hsize⟩ := hs.index_before_check hf (.inr hg)
  refine hs.goes_on (step_gCheck hf hg) (hs.progress_regrow hf _ ?_)
  by_cases hfull : full s
  · rw [if_pos hfull]
    simpa [IndexOk, hf] using And.intro h1 (And.intro hlt (And.intro hsize hfull))
  · have hkey : s.dictSize.toNat = insertKey s.maxSize.toNat (schedule s.maxSize.toNat s.ci) := by
      rw [← hsize, insertKey, if_neg hfull]
    rw [if_neg hfull]
    simpa [IndexOk, hf] using And.intro h1 (And.intro hlt hkey)

theorem Sound.step_gReset_goes_on (hg : s.grow = .gReset) : ∃ t, step s = .next t ∧ Sound t := by
  obtain ⟨h1, hlt, hsize, hfull⟩ : 1 ≤ s.ci ∧ s.ci < s.nCodes ∧
      s.dictSize.toNat = schedule s.maxSize.toNat s.ci ∧ full s := by simpa [IndexOk, hf, hg] using hs.index
  have hd := hs.decoding_sGrow hf
  have hkey : 256 = insertKey s.maxSize.toNat (schedule s.maxSize.toNat s.ci) := by
    rw [← hsize, insertKey_full hfull]
  have hp : (dictReset (consumeStart s)).phase ≠ .fault := by simp [hs.phase_sGrow hf]
  refine hs.goes_on (step_gReset hf hg) ?_
  rw [afterOp_next hp, nextFsm, nextGrow, if_pos (by simp [hg]), if_pos (by simp [hg])]
  refine Decoding.progress ⟨hd.count, hd.codes, hd.maxSize, hd.dict.dictReset, hd.output⟩ rfl ?_ (hs.newEntry_sGrow hf)
  exact ⟨h1, hlt, hkey⟩

theorem Sound.step_gWrite_goes_on (hg : s.grow = .gWrite) : ∃ t, step s = .next t ∧ Sound t := by
  obtain ⟨h1, hlt, hsize⟩ : 1 ≤ s.ci ∧ s.ci < s.nCodes ∧
      s.dictSize.toNat = insertKey s.maxSize.toNat (schedule s.maxSize.toNat s.ci) := by
    simpa [IndexOk, hf, hg] using hs.index
  have hd := hs.decoding_sGrow hf
  have hroom : s.dictSize.toNat < 4096 := hsize ▸ insertKey_lt hd.maxSize.le
  have hins := inserted_insertAt (s := consumeStart s) s.work.newEntry hroom
  have hdict : DictOk (insertAt s.work.newEntry (consumeStart s)) := by
    refine hd.dict.inserted hd.maxSize rfl (hs.newEntry_sGrow hf) ?_
    rw [hsize, insertKey_insertKey, ← hsize]
    exact hins
  have h : step s = .next (afterOp (.sGrow known) (insertAt s.work.newEntry (consumeStart s))) := by
    rw [step_gWrite hf hg, dictInsert_eq_next (s := consumeStart s) |>.2 ⟨hroom, rfl⟩, andThen_next]
  have hp : (insertAt s.work.newEntry (consumeStart s)).phase ≠ .fault := by simp [hs.phase_sGrow hf]
  refine hs.goes_on h ?_
  rw [afterOp_next hp, nextFsm, nextGrow, if_neg (by simp [hg]), if_neg (by simp [hg])]
  refine Decoding.progress ⟨hd.count, hd.codes, hd.maxSize, hdict, hd.output⟩ rfl ⟨h1, hlt, ?_⟩ trivial
  obtain ⟨-, -, hnext, -⟩ := hins
  exact hnext.trans ((congrArg (· + 1) hsize).trans (schedule_succ hd.maxSize.ge h1).symm)

theorem Sound.step_sGrow_goes_on : ∃ t, step s = .next t ∧ Sound t := by
  cases hg : s.grow with
  | gIdle => exact hs.step_gIdle_goes_on hf hg
  | gCheck => exact hs.step_gCheck_goes_on hf hg
  | gReset => exact hs.step_gReset_goes_on hf hg
  | gWrite => exact hs.step_gWrite_goes_on hf hg

end GrowSound

theorem step_sNext {s : State} {known : Bool} (hf : s.fsm = .sNext known) :
    step s = .next (consumeStart (nextWord known s)) :=
  step_of_move (by simp [select, hf])

theorem Progress.consumeStart {s : State} (h : Progress s) : Progress (consumeStart s) :=
  ⟨h.extract, h.codes, h.maxSize, h.dict, h.index, h.work, h.output⟩

theorem Sound.step_sNext_goes_on {s : State} {known : Bool} (hs : Sound s) (hf : s.fsm = .sNext known) :
    ∃ t, step s = .next t ∧ Sound t := by
  have hd := hs.toDecoding (by rw [hf]; rfl)
  obtain ⟨h1, hlt, hsize⟩ : 1 ≤ s.ci ∧ s.ci < s.nCodes ∧ s.dictSize.toNat = schedule s.maxSize.toNat (s.ci + 1) := by
    simpa [IndexOk, hf] using hs.index
  refine hs.goes_on (step_sNext hf) (Progress.consumeStart ?_)
  rw [show nextWord known s = enter (afterWord (wordEnd known s)) (wordEnd known s) from rfl]
  have hword := wordEnd_eq known s
  generalize (wordEnd known s).prevCode = prev at hword
  rw [hword]
  exact Decoding.progress_afterWord ⟨hd.count, hd.codes, hd.maxSize, hd.dict, hd.output⟩ (Nat.le_add_left _ _) hlt hsize

/-! ### Every state -/

theorem Sound.step_goes_on {s : State} (hs : Sound s) : ∃ t, step s = .next t ∧ Sound t := by
  cases hf : s.fsm with
  | sIdle | sFault => exact hs.step_waiting (by simp [waiting, hf])
  | sXsel => exact hs.step_sXsel hf
  | sXpair => exact hs.step_sXpair hf
  | sXwalk => exact hs.step_sXwalk hf
  | sXtail => exact hs.step_sXtail hf
  | sCfg => exact hs.step_sCfg hf
  | sInit => exact hs.step_sInit hf
  | sSeed => exact hs.step_sSeed_goes_on hf
  | sFetch => exact hs.step_sFetch_goes_on hf
  | sClass => exact hs.step_sClass_goes_on hf
  | sEmit known => exact hs.step_sEmit_goes_on hf
  | sGrow known => exact hs.step_sGrow_goes_on hf
  | sNext known => exact hs.step_sNext_goes_on hf
  | sDone => exact hs.step_sDone hf

/-- `S_FETCH` of the finer machine, at a sound state. -/
theorem Sound.fetchWord_goes_on {s : State} (hs : Sound s) (hf : s.fsm = .sFetch) :
    ∃ t, fetchWord (consumeStart s) = .next t ∧ Sound t := by
  have hd := hs.toDecoding (by rw [hf]; rfl)
  have hin : Filled s.inLen s.inMem := hs.input
  have hg : s.grow = .gIdle := hs.control.2 (by simp [hf])
  have hq : s.phase.quiet = false := by rw [hs.phase_sFetch hf]; rfl
  have hstatus : s.faultCode = none ∧ s.outValid = false := (statusOk_of_busy hq).1 hs.status
  obtain ⟨c, hr⟩ := hs.readCode_sFetch hf
  have hr' : readCode (consumeStart s) (consumeStart s).ci = .next c := hr
  rw [fetchWord, hr', andThen_next]
  rcases Nat.lt_or_ge s.prevCode.toNat s.dictSize.toNat with hp | hp
  · obtain ⟨b, r, hprev⟩ := hd.dict.exists_live hp
    rw [prelude_live (s := consumeStart s) hp hprev]
    refine ⟨_, rfl, Progress.sound ?_ ?_ ?_ hin⟩
    · exact Decoding.progress ⟨hd.count, hd.codes, hd.maxSize, hd.dict, hd.output⟩ rfl (fun _ => hs.fetch_index hf)
        (List.cons_ne_nil b r)
    · exact hs.canonical
    · exact ⟨controlOk_of_phase nofun rfl fun _ => hg,
        (statusOk_of_busy rfl).2 hstatus⟩
  · rw [prelude_stale (s := consumeStart s) hp]
    exact ⟨_, rfl, (progress_raiseFault ..).sound (Canonical.raiseFault (s := latchWord c (consumeStart s)) hs.canonical _ _)
      ⟨raiseFault_controlOk .., raiseFault_statusOk ..⟩ hin⟩

theorem Sound.microStep_goes_on {s : State} (hs : Sound s) : ∃ t, microStep s = .next t ∧ Sound t := by
  unfold microStep
  split
  · next hf => exact hs.fetchWord_goes_on hf
  · exact hs.step_goes_on

end Sys2Proof.Machine

namespace Sys2Proof

open Machine

/-- Settles O52: state by state, with the invariants of the host's part, of the spaces and of `STATUS` from every step. -/
theorem soundStepGoesOn : Obligations.SoundStepGoesOn := fun _ hs => ⟨hs.step_goes_on, hs.microStep_goes_on⟩

end Sys2Proof
end

section
/-! PROOF. A run computes the function `run` (spec/44_run_control.md R160): from the start through the extractor, the
configuration check, the initial dictionary and the decoder to the end, with the number of steps of each part. -/

open Sys2Proof.Statements

namespace Sys2Proof.Machine

/-! ### Runs of sound states -/

theorem Sound.stepRun {n : Nat} {s t : State} (hs : Sound s) (h : stepRun n s = .next t) : Sound t := by
  induction n generalizing s with
  | zero => exact Host.Outcome.next.inj h ▸ hs
  | succ n ih =>
    obtain ⟨u, hu, h⟩ := andThen_eq_next.1 h
    obtain ⟨u', hu', hsu⟩ := hs.step_goes_on
    exact ih (Host.Outcome.next.inj (hu'.symm.trans hu) ▸ hsu) h

/-- The first step of a run takes the pending start, and no later one sets it. -/
theorem stepRun_start {n : Nat} {s t : State} (h : stepRun (n + 1) s = .next t) : t.start = false := by
  induction n generalizing s with
  | zero =>
    obtain ⟨u, hu, h⟩ := andThen_eq_next.1 h
    exact Host.Outcome.next.inj h ▸ step_start hu
  | succ n ih =>
    obtain ⟨u, -, h⟩ := andThen_eq_next.1 h
    exact ih h

/-- Within `k` steps the block waits with the result. -/
def Ends (k : Nat) (s : State) (r : RunResult) : Prop :=
  ∃ n t, n ≤ k ∧ stepRun n s = .next t ∧ waiting t = true ∧ EndsIn r t

theorem Ends.of_run {k n m : Nat} {s t : State} {r : RunResult} (hr : stepRun n s = .next t) (h : Ends m t r)
    (hk : n + m ≤ k) : Ends k s r := by
  obtain ⟨l, u, hl, hu, hw, he⟩ := h
  exact ⟨n + l, u, by omega, (stepRun_add hr l).trans hu, hw, he⟩

theorem Ends.of_step {k : Nat} {s t : State} {r : RunResult} (hs : step s = .next t) (h : Ends k t r) :
    Ends (k + 1) s r :=
  .of_run (stepRun_succ hs 0) h (by omega)

theorem ends_raiseFault (k : Nat) (f : RunFault) (info : Nat) (s : State) :
    Ends k (raiseFault f info s) (.fault f info) :=
  ⟨0, _, Nat.zero_le k, rfl, rfl, rfl, rfl, rfl⟩

/-! ### The end of a run -/

/-- R155: at the end of a run RUN.DONE follows, unless it has run. -/
theorem Sound.ends_sDone {s : State} {out : Str} (hs : Sound s) (hf : s.fsm = .sDone)
    (ho : memReadBytes s.outMem 0 s.outLen = some out) : Ends 1 s (.done out) := by
  by_cases hp : s.phase = .done
  · exact ⟨0, s, by omega, rfl, by simp [waiting, hf, hp], hp, hs.status.2.2 hp, by rw [hostReadResult, if_pos hp, ho]⟩
  · exact ⟨1, _, le_rfl, stepRun_succ (Machine.step_sDone hf hp) 0, rfl, rfl, rfl, ho⟩

/-- A sound state in `FAULT` waits. -/
theorem Sound.ends_fault {s : State} {f : RunFault} {info : Nat} (hs : Sound s) (hp : s.phase = .fault)
    (hc : s.faultCode = some f) (hi : s.faultInfo = BitVec.ofNat 16 info) (k : Nat) : Ends k s (.fault f info) :=
  ⟨0, s, Nat.zero_le k, rfl, by rw [hs.control.waiting_eq, hp]; rfl, hp, hc, hi⟩

/-! ### The parts of a run after the extraction -/

/-- The result of the decoder on the code stream (R126, R160). -/
def decodeResult (m : Nat) (cs : List CodeWord) : RunResult :=
  match decodeAll m cs with
  | .ok out => .done out
  | .error e => .fault e.1 e.2

/-- The code stream is extracted and nothing is decoded. -/
structure Ready (cs : List CodeWord) (s : State) : Prop where
  sound : Sound s
  codes : CodesAre cs s
  outLen : s.outLen = 0

/-- The same after a step that leaves `CODES` and the output. -/
theorem Ready.step {cs : List CodeWord} {s t : State} (h : Ready cs s) (hs : Machine.step s = .next t)
    (hn : t.nCodes = s.nCodes) (hc : t.codes = s.codes) (ho : t.outLen = s.outLen) : Ready cs t where
  sound := h.sound.stepRun (stepRun_succ hs 0)
  codes := h.codes.congr hn hc
  outLen := ho.trans h.outLen

section Ready

variable {cs : List CodeWord} {s : State} (h : Ready cs s)
include h

theorem Ready.ends_sSeed (hf : s.fsm = .sSeed) : Ends (cs.length + 1) s (decodeResult s.maxSize.toNat cs) := by
  obtain ⟨hn, hc⟩ := h.codes
  obtain ⟨n, t, hle, ht, ha⟩ := decodingComputesDecode s cs h.sound hf h.outLen hn hc
  have hst := h.sound.stepRun ht
  unfold decodeResult
  cases hd : decodeAll s.maxSize.toNat cs with
  | ok out =>
    rw [hd] at ha
    obtain ⟨hfsm, -, hout⟩ := ha
    exact .of_run ht (hst.ends_sDone hfsm hout) (by omega)
  | error e =>
    rw [hd] at ha
    obtain ⟨hp, hcode, hinfo⟩ := ha
    exact .of_run ht (hst.ends_fault hp hcode hinfo 0) (by omega)

/-- "(4) `DICT.INIT`" (R152); an empty code stream ends the run. -/
theorem Ready.ends_sInit (hf : s.fsm = .sInit) : Ends (cs.length + 2) s (decodeResult s.maxSize.toNat cs) := by
  have hstep := Machine.step_sInit hf
  have hready := h.step hstep (by simp) (by simp) (by simp)
  have hp : (dictInit (consumeStart s)).phase ≠ .fault := h.sound.phase_ne_fault (by rw [hf]; rfl)
  have hfsm : (afterOp .sInit (dictInit (consumeStart s))).fsm = if s.nCodes = 0 then .sDone else .sSeed :=
    afterOp_fsm hp
  have hmax : (afterOp .sInit (dictInit (consumeStart s))).maxSize = s.maxSize := by simp
  obtain ⟨hn, -⟩ := h.codes
  rw [hn] at hfsm
  generalize afterOp .sInit (dictInit (consumeStart s)) = t at *
  refine .of_step hstep ?_
  rw [← hmax]
  cases cs with
  | nil =>
    have hout : memReadBytes t.outMem 0 t.outLen = some [] := by rw [hready.outLen]; rfl
    exact hready.sound.ends_sDone hfsm hout
  | cons c cs => exact hready.ends_sSeed hfsm

/-- R153, and what follows at a legal exponent. -/
theorem Ready.ends_sCfg (hf : s.fsm = .sCfg) :
    Ends (cs.length + 3) s (if s.dictExp.toNat < 8 ∨ 12 < s.dictExp.toNat then .fault .configurationError s.dictExp.toNat
      else decodeResult (2 ^ s.dictExp.toNat) cs) := by
  by_cases he : s.dictExp.toNat < 8 ∨ 12 < s.dictExp.toNat
  · rw [if_pos he]
    exact .of_step (step_sCfg_illegal hf he) (ends_raiseFault ..)
  · have h12 : s.dictExp.toNat ≤ 12 := by omega
    have hstep := step_sCfg_legal hf (show 8 ≤ s.dictExp.toNat by omega) h12
    have hready := h.step hstep (by simp) (by simp) (by simp)
    have hmax : (afterOp .sCfg (latchMax s.dictExp { consumeStart s with phase := .config })).maxSize.toNat =
        2 ^ s.dictExp.toNat := by
      rw [afterOp_maxSize]
      exact latchMax_toNat h12 _
    rw [if_neg he, ← hmax]
    exact .of_step hstep (hready.ends_sInit rfl)

end Ready

/-! ### The whole run -/

theorem InputIs.filled {bytes : List Byte} {s : State} (h : InputIs bytes s) : Filled s.inLen s.inMem := by
  intro a ha
  have hr := ((memReadBytes_eq_some _ _ _ _).1 h).2 a ha
  rw [Nat.zero_add] at hr
  rw [hr, List.getElem?_eq_getElem (h.length ▸ ha)]
  nofun

theorem runResult_of_extract {bytes : List Byte} {cs : List CodeWord} (h : extract bytes = some cs) (e : BitVec 4) :
    runResult true bytes e =
      if e.toNat < 8 ∨ 12 < e.toNat then .fault .configurationError e.toNat else decodeResult (2 ^ e.toNat) cs := by
  simp only [runResult, h]
  rfl

/-- R87 and what follows, from the choice by length. -/
theorem ends_sXsel {bytes : List Byte} {s : State} (hs : Sound s) (hf : s.fsm = .sXsel) (ho : s.outLen = 0)
    (hin : InputIs bytes s) : Ends (s.inLen / 3 + codeCount s.inLen + 5) s (runResult true bytes s.dictExp) := by
  have hp : s.phase = .extract := (hs.control.phase_eq (by simp [hf])).trans (congrArg Fsm.phase hf)
  obtain ⟨hbi, hn⟩ : s.bi = 0 ∧ s.nCodes = 0 := by simpa [ExtractOk, hf] using hs.extract
  by_cases h1 : bytes.length = 1
  · have hres : runResult true bytes s.dictExp = .fault .malformedLength 1 := by simp [runResult, extract_one h1]
    rw [hres]
    exact .of_step (step_xOne hf (hin.length.trans h1)) (ends_raiseFault ..)
  · obtain ⟨n, cs, t, hle, ht, hcs, hft, hcodes, hexp, -, -, hout, -⟩ := extraction_run hf hin hp hbi hn h1
    have hready : Ready cs t := ⟨hs.stepRun ht, hcodes, hout.trans ho⟩
    have hlen : cs.length = codeCount s.inLen := by rw [extract_length hcs, hin.length]
    rw [runResult_of_extract hcs, ← hexp]
    exact .of_run ht (hready.ends_sCfg hft) (by omega)

/-- R151 and what follows, from a waiting block whatever its earlier run was. -/
theorem ends_start {bytes : List Byte} {s : State} (hc : Canonical s) (hk : ControlOk s) (hw : waiting s = true)
    (hs : s.start = true) (hin : InputIs bytes s) :
    ∃ n t, 1 ≤ n ∧ n ≤ s.inLen / 3 + codeCount s.inLen + 6 ∧ stepRun n s = .next t ∧ waiting t = true ∧
      t.start = false ∧ EndsIn (runResult s.srcOk bytes s.dictExp) t := by
  obtain ⟨u, hstep, n, t, hle, ht, hwt, he⟩ : ∃ u, step s = .next u ∧
      Ends (s.inLen / 3 + codeCount s.inLen + 5) u (runResult s.srcOk bytes s.dictExp) := by
    cases hsrc : s.srcOk with
    | true =>
      have hfill : Filled s.inLen s.inMem := hin.filled
      exact ⟨_, step_start_ok hk hw hs hsrc, ends_sXsel (s := begun s) (sound_begun hc hfill) rfl rfl hin⟩
    | false => exact ⟨_, step_start_unavailable hk hw hs hsrc, ends_raiseFault ..⟩
  have hrun : stepRun (n + 1) s = .next t := (stepRun_succ hstep n).trans ht
  exact ⟨n + 1, t, by omega, by omega, hrun, hwt, stepRun_start hrun, he⟩

end Sys2Proof.Machine

namespace Sys2Proof

open Machine

/-- Settles O55: the first step is RUN.START, and each part of the run after it ends in the result of its part of the
function. -/
theorem runComputesItsFunction : Obligations.RunComputesItsFunction :=
  fun _ _ hc hk hw hs hin => ends_start hc hk hw hs hin

/-- Settles O56: the load keeps the form of `IN` and leaves a waiting block with a start pending. -/
theorem hostLoadRuns : Obligations.HostLoadRuns := by
  intro s t bytes e hc hk h
  unfold hostLoad at h
  split at h
  · next hmay =>
    obtain ⟨hq, -⟩ := hostMayWrite_iff.1 hmay
    obtain rfl := Option.some.inj h
    have hcan : Canonical { s with
        dictExp := e, srcOk := true, start := true
        inMem := memWriteBytes s.inMem 0 bytes, inLen := bytes.length } := by
      obtain ⟨hin, hrest⟩ := hc
      exact ⟨Memory.wf_writeBytes bytes _ _ hin, hrest⟩
    obtain ⟨n, u, h1, -, hrun, hw, hst, he⟩ := ends_start hcan hk (hk.waiting_eq.trans hq) rfl
      (memReadBytes_write s.inMem bytes)
    exact ⟨n, u, h1, hrun, hw, hst, he⟩
  · cases h

end Sys2Proof
end

section
/-! PROOF. Decoder steps by themselves (spec/42_decoder_sequence.md R121, R122, R124, spec/43_output_accumulator.md R146):
the seed step of every form, the absent `prev_code`, the absent code word, and the length of an output. -/

open Sys2Proof.Statements

namespace Sys2Proof.Machine

/-! ### The seed step -/

theorem exec_of_seedForm {c : CodeWord} {s : State} {i : Instr} (h : SeedForm c s i) : exec i s = seedStep c s := by
  obtain rfl | ⟨b, rfl, rfl⟩ | ⟨d, rfl, rfl, hci⟩ := h
  · rfl
  · rfl
  · exact if_pos hci

/-- The identity entry of a code word below 256. -/
theorem snap_toNat (c : CodeWord) : snap c.toNat = [c.setWidth 8] := by
  rw [snap, BitVec.ofNat_toNat]

theorem raised_latchWord (f : RunFault) (info : Nat) (c : CodeWord) (s : State) :
    Raised f info s (raiseFault f info (latchWord c s)) :=
  raised_raiseFault f info (latchWord c s) s.phase

/-! ### An absent code word (R124) -/

theorem dictGrow_eq_of_key {t : Str} {s : State} (h : insertKey s.maxSize.toNat s.dictSize.toNat < 4096) :
    dictGrow t s = .next (insertAt t (growFrom s)) := by
  rw [← growFrom_size] at h
  exact dictInsert_eq_next.2 ⟨h, rfl⟩

theorem caseB_eq_of_key {s : State} {b : Byte} {r : Str} (hp : s.work.prevEntry = b :: r)
    (hk : insertKey s.maxSize.toNat s.dictSize.toNat < 4096) : caseB s = .next (selfrefEnd ((b :: r) ++ [b]) s) := by
  have hf : first s.work.prevEntry = .next b := first_eq_next.2 ⟨r, hp⟩
  simp only [caseB, formSelfref, hf, andThen_next]
  rw [dictGrow_eq_of_key (by exact hk), ← hp]
  rfl

theorem growFrom_latchWord (c : CodeWord) (s : State) : growFrom (latchWord c s) = latchWord c (growFrom s) := by
  by_cases h : full s
  · have h' : full (latchWord c s) := h
    rw [growFrom, if_pos h', growFrom, if_pos h]
    rfl
  · have h' : ¬ full (latchWord c s) := h
    rw [growFrom, if_neg h', growFrom, if_neg h]

/-- Case B does not use the code word. -/
theorem selfrefEnd_latchWord (t : Str) (c : CodeWord) (s : State) :
    selfrefEnd t (latchWord c s) = latchWord c (selfrefEnd t s) := by
  unfold selfrefEnd
  have hg := growFrom_latchWord c (outAppend t { s with work := { s.work with newEntry := t, emitted := t } })
  exact congrArg (fun u => finishSelfref (insertAt t u)) hg

/-- The reset of the same step is the only way in which a present code word is absent after it (R123). -/
theorem LoopOutcome.prev_eq {c : CodeWord} {s u : State} (h : LoopOutcome c s u) (hu : u.phase ≠ .fault)
    (hc : present s c) : u.prevCode.toNat = c.toNat := by
  cases h with
  | stale h hr => exact absurd (hr ▸ raiseFault_phase _ _ _) hu
  | known e new h _ hn hs hprev => exact hprev
  | selfref e h hno => exact absurd hc hno

/-- R122: a fault of a main-loop step shows `prev_code`. -/
theorem Sound.fault_of_sFetch {s t : State} (hs : Sound s) (hf : s.fsm = .sFetch) (h : step s = .next t)
    (ht : t.phase = .fault) : t.faultCode = some .internalInconsistency ∧ t.faultInfo.toNat = s.prevCode.toNat := by
  obtain ⟨c, hr⟩ := hs.readCode_sFetch hf
  obtain ⟨u, rfl, ho⟩ := hs.step_sFetch_eq hf hr h
  obtain rfl | ⟨e, new, -, hl⟩ := ho.raised_or_stepped
  · refine ⟨rfl, ?_⟩
    rw [afterOp_raiseFault, raiseFault_faultInfo_toNat, consumeStart_prevCode]
    omega
  · rw [afterOp_phase_eq_fault, hl.status.1] at ht
    exact absurd ht (by simp [hs.phase_sFetch hf])

/-! ### The length of an output -/

/-- Every entry has a byte, and at most `j`. -/
def EntriesWithin (j : Nat) (entries : List Str) : Prop := ∀ t ∈ entries, 1 ≤ t.length ∧ t.length ≤ j

theorem entriesWithin_initialDict {j : Nat} (hj : 1 ≤ j) : EntriesWithin j initialDict := by
  intro t ht
  obtain ⟨k, -, rfl⟩ := List.mem_map.1 ht
  exact ⟨le_rfl, hj⟩

/-- An insertion makes an entry at most one byte longer than those before it. -/
theorem EntriesWithin.grown {j : Nat} {entries : List Str} (h : EntriesWithin j entries) (hj : 1 ≤ j) (m : Nat) {p e : Str}
    (hp : p ∈ entries) : EntriesWithin (j + 1) (growBase m entries ++ [p ++ e.take 1]) := by
  have hb : EntriesWithin j (growBase m entries) := by
    unfold growBase
    split
    · exact entriesWithin_initialDict hj
    · exact h
  obtain ⟨h1, h2⟩ := h p hp
  intro t ht
  obtain ht | ht := List.mem_append.1 ht
  · obtain ⟨h3, h4⟩ := hb t ht
    exact ⟨h3, by omega⟩
  · obtain rfl := List.mem_singleton.1 ht
    rw [List.length_append, List.length_take]
    omega

/-- R146 from a code word of the main loop on: each of the code words left appends at least one byte, and the `i`-th of
them at most `j + i`. -/
theorem decodeRest_length {m prev j : Nat} {entries : List Str} {out out' : Str} {cs : List CodeWord}
    (h : decodeRest m entries prev out cs = .ok out') (hj : 1 ≤ j) (he : EntriesWithin j entries) :
    out.length + cs.length ≤ out'.length ∧
      2 * out'.length ≤ 2 * out.length + cs.length * (2 * j + cs.length + 1) := by
  induction cs generalizing entries prev out j with
  | nil =>
    obtain rfl := Except.ok.inj h
    simp
  | cons c cs ih =>
    have hstep : ∀ {e : Str} {entries' : List Str} {prev' : Nat}, 1 ≤ e.length → e.length ≤ j + 1 →
        EntriesWithin (j + 1) entries' → decodeRest m entries' prev' (out ++ e) cs = .ok out' →
        out.length + (c :: cs).length ≤ out'.length ∧
          2 * out'.length ≤ 2 * out.length + (c :: cs).length * (2 * j + (c :: cs).length + 1) := by
      intro e entries' prev' h1 h2 he' hr
      obtain ⟨hlow, hhigh⟩ := ih hr (Nat.le_add_left 1 j) he'
      rw [List.length_append] at hlow hhigh
      rw [List.length_cons]
      refine ⟨by omega, ?_⟩
      nlinarith
    cases hp : entries[prev]? with
    | none => simp [decodeRest, hp] at h
    | some p =>
      have hpm := List.mem_of_getElem? hp
      obtain ⟨hp1, hp2⟩ := he p hpm
      cases hc : entries[c.toNat]? with
      | some e =>
        simp only [decodeRest, hp, hc] at h
        obtain ⟨h1, h2⟩ := he e (List.mem_of_getElem? hc)
        exact hstep h1 (by omega) (he.grown hj m hpm) h
      | none =>
        simp only [decodeRest, hp, hc] at h
        refine hstep ?_ ?_ (he.grown hj m hpm) h
        · rw [List.length_append]
          omega
        · rw [List.length_append, List.length_take]
          omega

end Sys2Proof.Machine

namespace Sys2Proof

open Machine

/-- Settles O28: every form performs the seed step, and the initial dictionary has exactly the keys below 256. -/
theorem seedStep : Obligations.SeedStep := by
  intro s c i hi hsize hid
  have hs : s.dictSize.toNat = 256 := congrArg BitVec.toNat hsize
  rw [exec_of_seedForm hi]
  refine ⟨fun hc => ?_, fun hc => ⟨_, seedStep_absent (hs.trans_le hc), raised_latchWord .., rfl⟩⟩
  refine ⟨_, seedStep_present (hc.trans_eq hs.symm) (hid _ hc), ?_⟩
  rw [snap_toNat]
  exact ⟨appended_of_write rfl rfl, rfl, rfl, rfl, ⟨rfl, rfl, rfl, rfl, rfl⟩, ⟨rfl, rfl, rfl, rfl⟩, ⟨rfl, rfl, rfl⟩,
    ⟨rfl, rfl, rfl⟩, rfl, rfl, rfl⟩

/-- Settles O29: every form begins with the prelude. -/
theorem stalePrevCodeFaults : Obligations.StalePrevCodeFaults := by
  intro s c i hi hp
  obtain ⟨body, hbody⟩ : ∃ body, exec i s = prelude c body s := by
    obtain hi | hi := hi
    · exact ⟨_, exec_of_knownForm hi⟩
    · exact ⟨_, exec_of_selfrefForm hi⟩
  exact ⟨_, hbody.trans (prelude_stale hp c body), raised_latchWord .., rfl⟩

/-- Settles O32: the prelude and Case B write what they write beside the latched word. -/
theorem selfrefIgnoresTheCode : Obligations.SelfrefIgnoresTheCode := by
  intro s t c c' h
  obtain ⟨hp, rfl⟩ | ⟨p, hp, hpe, hb⟩ := prelude_next h
  · exact prelude_stale hp c' caseB
  · obtain ⟨b, r, hprev, hk, rfl⟩ := caseB_next hb
    have hlive : exec (.dSelfref c') s = caseB (latchWord c' (writeEntry .prevEntry p (latchWord c s))) :=
      prelude_live hp hpe c' caseB
    rw [hlive, ← selfrefEnd_latchWord]
    exact caseB_eq_of_key hprev hk

/-- Settles O33: the next step faults exactly when `prev_code` is not live, which only a reset step of a present code word of
257 or more leaves, and then `prev_code` is that code word. -/
theorem faultExactlyAfterResetWithHighCode : Obligations.FaultExactlyAfterResetWithHighCode := by
  intro s t c hs hf hr h htf
  have hst : Sound t := hs.stepRun (stepRun_succ h 0)
  have ht : t.phase ≠ .fault := by simp [hst.phase_sFetch htf]
  obtain ⟨u, hu, -⟩ := hst.step_goes_on
  obtain ⟨hfault, -⟩ := noOtherFaultInTheLoop t u hst htf hu
  have hlive := prevCodeLive s t c hs (.inr hf) hr h ht
  simp only [hf, true_and] at hlive
  have hiff : u.phase = .fault ↔ s.maxSize.toNat ≤ s.dictSize.toNat ∧ present s c ∧ 257 ≤ c.toNat := by
    rw [hfault, ← Nat.not_lt, hlive, not_not]
  refine ⟨u, hu, hiff, fun hp => ?_⟩
  obtain ⟨hcode, hinfo⟩ := hst.fault_of_sFetch htf hu hp
  obtain ⟨-, hc, -⟩ := hiff.1 hp
  obtain ⟨v, rfl, ho⟩ := hs.step_sFetch_eq hf hr h
  have hprev := ho.prev_eq (phase_ne_fault_of_afterOp ht) hc
  exact ⟨hcode, by rw [hinfo, afterOp_prevCode, hprev]⟩

/-- Settles O36: the seed appends one byte, and the `i`-th code word at most `i`. -/
theorem outputLengthBounds : Obligations.OutputLengthBounds := by
  intro m cs out h
  cases cs with
  | nil =>
    obtain rfl := Except.ok.inj h
    simp
  | cons c cs =>
    rw [decodeAll] at h
    split at h
    · cases h
    · obtain ⟨hlow, hhigh⟩ := decodeRest_length h le_rfl (entriesWithin_initialDict le_rfl)
      rw [show (snap c.toNat).length = 1 from rfl] at hlow hhigh
      rw [List.length_cons]
      refine ⟨by omega, ?_⟩
      nlinarith

/-- Settles O47: the operation of the static ranges that the fetch selects is the one of the presence test. -/
theorem presenceTestSelects : Obligations.PresenceTestSelects := by
  intro s c hlow hhigh hr
  have hloop : s.fsm = .sFetch → s.ci ≠ 0 → step s = andThen (exec (decodeLoopStep s.dictSize c) (consumeStart s))
      fun t => .next (afterOp s.fsm t) := fun hf hci => by
    have hsel : select s = .next (.op (decodeLoopWord c)) := by simp [select, hf, hr]
    rw [step_of_op hsel, exec_decodeLoopWord (s := consumeStart s) hci hlow hhigh, consumeStart_dictSize]
  refine ⟨fun hf hci hc => ?_, fun hf hci hc => ?_, fun hf hci => ?_⟩
  · rw [hloop hf hci, decodeLoopStep, if_pos hc]
  · rw [hloop hf hci, decodeLoopStep, if_neg (Nat.not_lt.2 hc)]
  · have hsel : select s = .next (.op (decodeSeedWord c)) := by simp [select, hf, hr]
    rw [step_of_op hsel, exec_decodeSeedWord (s := consumeStart s) hci]
    rfl

end Sys2Proof
end

section
/-! PROOF. The finer machine does what one main-loop step does (spec/44_run_control.md R156, spec/41_dictionary_engine.md
R109): one equation per state of a main-loop step, then the chain of them from its end to its beginning. -/

namespace Sys2Proof.Machine

/-! ### Runs of the finer machine -/

theorem andThen_congr {α β : Type} {x : Res α} {f g : α → Res β} (h : ∀ a, x = .next a → f a = g a) :
    andThen x f = andThen x g := by
  cases x with
  | next a => exact h a rfl
  | fault r => rfl
  | refused r => rfl

/-- In at least one and at most `k` steps the finer machine answers what is given, a next state or a stop. -/
def Refines (k : Nat) (s : State) (r : Res State) : Prop := ∃ n, 1 ≤ n ∧ n ≤ k ∧ microRun n s = r

theorem refines_last {s : State} {r : Res State} (h : microStep s = r) : Refines 1 s r := by
  refine ⟨1, le_rfl, le_rfl, ?_⟩
  rw [microRun, h]
  cases r <;> rfl

theorem Refines.mono {k l : Nat} {s : State} {r : Res State} (h : Refines k s r) (hkl : k ≤ l) : Refines l s r := by
  obtain ⟨n, h1, hn, hr⟩ := h
  exact ⟨n, h1, hn.trans hkl, hr⟩

theorem Refines.of_next {k : Nat} {s t : State} {r : Res State} (hs : microStep s = .next t) (h : Refines k t r) :
    Refines (k + 1) s r := by
  obtain ⟨n, -, hn, hr⟩ := h
  refine ⟨n + 1, by omega, by omega, ?_⟩
  rw [microRun, hs, andThen_next, hr]

/-- A step that may stop refines a step that stops where it does. -/
theorem refines_andThen {α : Type} {k : Nat} {s : State} {x : Res α} {f : α → State} {g : α → Res State}
    (hs : microStep s = andThen x fun a => .next (f a)) (h : ∀ a, x = .next a → Refines k (f a) (g a)) :
    Refines (k + 1) s (andThen x g) := by
  cases x with
  | next a => exact .of_next hs (h a rfl)
  | fault r => exact (refines_last hs).mono (by omega)
  | refused r => exact (refines_last hs).mono (by omega)

/-! ### One state of a main-loop step after the other -/

/-- A state of the finer machine inside a main-loop step. -/
def inStep (f : Fsm) (g : GrowFsm) (s : State) : State :=
  { s with fsm := f, phase := .loop, grow := g, start := false }

theorem inStep_self {s : State} (hf : s.fsm = .sFetch) (hp : s.phase = .loop) (hg : s.grow = .gIdle)
    (hs : s.start = false) : inStep .sFetch .gIdle s = s := by
  rw [inStep, ← hf, ← hp, ← hg, ← hs]

theorem microStep_of_step {f : Fsm} {g : GrowFsm} {s : State} {r : Res State} (h : step (inStep f g s) = r)
    (hf : f ≠ .sFetch) : microStep (inStep f g s) = r :=
  (if_neg hf).trans h

section States

variable (known : Bool) (s : State)

theorem microStep_sClass : microStep (inStep .sClass .gIdle s) = andThen (classWork s) fun p =>
    .next (inStep (.sEmit p.1) .gIdle { s with work := p.2 }) := step_sClass rfl

theorem microStep_sEmit : microStep (inStep (.sEmit known) .gIdle s) =
    .next (inStep (.sGrow known) .gIdle (outAppend s.work.emitted s)) := by
  exact microStep_of_step ((step_sEmit rfl).trans (congrArg Host.Outcome.next (afterOp_next nofun))) nofun

theorem microStep_gIdle : microStep (inStep (.sGrow known) .gIdle s) = .next (inStep (.sGrow known) .gCheck s) := by
  refine microStep_of_step ((step_gIdle rfl rfl).trans ?_) nofun
  rfl

theorem microStep_gCheck : microStep (inStep (.sGrow known) .gCheck s) =
    .next (inStep (.sGrow known) (if full s then .gReset else .gWrite) s) := by
  refine microStep_of_step ((step_gCheck rfl rfl).trans ?_) nofun
  rfl

theorem microStep_gReset : microStep (inStep (.sGrow known) .gReset s) =
    .next (inStep (.sGrow known) .gWrite (dictReset s)) := by
  exact microStep_of_step ((step_gReset rfl rfl).trans (congrArg Host.Outcome.next (afterOp_next nofun))) nofun

theorem dictInsert_inStep (f : Fsm) (g : GrowFsm) (t : Str) :
    dictInsert t (inStep f g s) = andThen (dictInsert t s) fun u => .next (inStep f g u) := by
  by_cases h : s.dictSize.toNat < Config.dictSlots
  · have h' : (inStep f g s).dictSize.toNat < Config.dictSlots := h
    rw [dictInsert, if_pos h', dictInsert, if_pos h]
    rfl
  · have h' : ¬ (inStep f g s).dictSize.toNat < Config.dictSlots := h
    rw [dictInsert, if_neg h', dictInsert, if_neg h]
    rfl

theorem microStep_gWrite : microStep (inStep (.sGrow known) .gWrite s) =
    andThen (dictInsert s.work.newEntry s) fun u => .next (inStep (.sNext known) .gIdle u) := by
  have hins := dictInsert_inStep s (.sGrow known) .gWrite s.work.newEntry
  refine microStep_of_step ((step_gWrite rfl rfl).trans ?_) nofun
  refine (congrArg (andThen · fun t => .next (afterOp (.sGrow known) t)) hins).trans ?_
  rw [andThen_assoc]
  refine andThen_congr fun u _ => ?_
  exact congrArg Host.Outcome.next (afterOp_next nofun)

/-- The state a main-loop step leaves, with its transition. -/
def loopDone (known : Bool) (s : State) : State := afterOp .sFetch (wordEnd known (inStep .sFetch .gIdle s))

theorem microStep_sNext : microStep (inStep (.sNext known) .gIdle s) = .next (loopDone known s) := by
  refine microStep_of_step ((step_sNext rfl).trans ?_) nofun
  have hp : (inStep (.sNext known) .gIdle s).phase ≠ .fault := nofun
  rw [nextWord_eq hp, loopDone]
  cases known <;> rfl

end States

/-! ### From the end of a main-loop step to its beginning -/

section Chain

variable (known : Bool) (s : State)

/-- `G_WRITE` and `S_NEXT`. -/
theorem refines_gWrite : Refines 2 (inStep (.sGrow known) .gWrite s)
    (andThen (dictInsert s.work.newEntry s) fun u => .next (loopDone known u)) :=
  refines_andThen (microStep_gWrite known s) fun u _ => refines_last (microStep_sNext known u)

/-- `S_GROW`: the reset of a full dictionary comes before the insertion (R108). -/
theorem refines_sGrow : Refines 5 (inStep (.sGrow known) .gIdle s)
    (andThen (dictGrow s.work.newEntry s) fun u => .next (loopDone known u)) := by
  refine .of_next (microStep_gIdle known s) (.of_next (microStep_gCheck known s) ?_)
  unfold dictGrow
  by_cases hfull : full s
  · rw [if_pos hfull, if_pos hfull]
    exact .of_next (microStep_gReset known s) (refines_gWrite known (dictReset s))
  · rw [if_neg hfull, if_neg hfull]
    exact (refines_gWrite known s).mono (by omega)

theorem refines_sEmit : Refines 6 (inStep (.sEmit known) .gIdle s)
    (andThen (dictGrow s.work.newEntry (outAppend s.work.emitted s)) fun u => .next (loopDone known u)) :=
  .of_next (microStep_sEmit known s) (refines_sGrow known (outAppend s.work.emitted s))

/-- Case A or Case B after the prelude, by the states of R156. -/
theorem refines_sClass : Refines 7 (inStep .sClass .gIdle s) (andThen (classWork s) fun p =>
    andThen (dictGrow p.2.newEntry (outAppend p.2.emitted { s with work := p.2 })) fun u => .next (loopDone p.1 u)) :=
  refines_andThen (microStep_sClass s) fun p _ => refines_sEmit p.1 { s with work := p.2 }

end Chain

/-! ### The coarse step -/

theorem dictGrow_frame {t : Str} {s u : State} (h : dictGrow t s = .next u) :
    u.fsm = s.fsm ∧ u.phase = s.phase ∧ u.grow = s.grow ∧ u.start = s.start ∧ u.work.c = s.work.c := by
  obtain ⟨-, rfl⟩ := dictGrow_next h
  simp

/-- R122 to R124 after the prelude, in the terms of the finer states. -/
theorem case_eq (s : State) : (if present s s.work.c then caseA s.work.c s else caseB s) =
    andThen (classWork s) fun p =>
      andThen (dictGrow p.2.newEntry (outAppend p.2.emitted { s with work := p.2 })) fun u => .next (wordEnd p.1 u) := by
  unfold classWork
  by_cases hc : present s s.work.c
  · rw [if_pos hc, if_pos hc]
    simp only [caseA, formKnown, andThen_assoc, andThen_next]
    refine andThen_congr fun e _ => andThen_congr fun b _ => andThen_congr fun u hu => ?_
    obtain ⟨-, -, -, -, hword⟩ := dictGrow_frame hu
    rw [wordEnd, if_pos rfl, hword]
    rfl
  · rw [if_neg hc, if_neg hc]
    simp only [caseB, formSelfref, andThen_assoc, andThen_next]
    rfl

/-- What the prelude can do with whatever comes after it (R122): fault, stop, or go on with `prev_entry` read. -/
theorem prelude_cases (c : CodeWord) (s : State) :
    (∃ t, t.phase = .fault ∧ ∀ body, prelude c body s = .next t) ∨ (∃ r, ∀ body, prelude c body s = .fault r) ∨
    ∃ p, ∀ body, prelude c body s = body (writeEntry .prevEntry p (latchWord c s)) := by
  rcases Nat.lt_or_ge s.prevCode.toNat s.dictSize.toNat with hp | hp
  · cases hd : dictRead s.dict s.prevCode.toNat with
    | some p => exact .inr (.inr ⟨p, prelude_live hp hd c⟩)
    | none =>
      refine .inr (.inl ⟨.readUnwritten .dict s.prevCode.toNat, fun body => ?_⟩)
      rw [prelude, if_pos hp, lookup_unwritten hp hd, andThen_fault]
  · exact .inl ⟨_, rfl, prelude_stale hp c⟩

theorem exec_decodeLoopWord_eq_loopStep {c : CodeWord} {s : State} (hci : s.ci ≠ 0) (hlow : 256 ≤ s.dictSize.toNat)
    (hhigh : s.dictSize.toNat ≤ 4096) : exec (decodeLoopWord c) s = loopStep c s := by
  unfold loopStep
  by_cases hc : present s c
  · simp only [exec_of_knownForm (knownForm_decodeLoopWord hci hhigh hc), if_pos hc]
  · simp only [exec_of_selfrefForm (selfrefForm_decodeLoopWord hci hlow hc), if_neg hc]

/-- The state after the prelude inside a main-loop step, with the transition of the whole step after its case. -/
theorem refines_case_of_inStep {w : State} (hf : w.fsm = .sFetch) (hp : w.phase = .loop) (hg : w.grow = .gIdle)
    (hs : w.start = false) : Refines 7 (inStep .sClass .gIdle w)
      (andThen (if present w w.work.c then caseA w.work.c w else caseB w) fun t => .next (afterOp .sFetch t)) := by
  have hdone : (andThen (if present w w.work.c then caseA w.work.c w else caseB w) fun t =>
      .next (afterOp .sFetch t)) = andThen (classWork w) fun p =>
        andThen (dictGrow p.2.newEntry (outAppend p.2.emitted { w with work := p.2 })) fun u =>
          .next (loopDone p.1 u) := by
    simp only [case_eq, andThen_assoc, andThen_next]
    refine andThen_congr fun p _ => andThen_congr fun u hu => ?_
    obtain ⟨hfsm, hphase, hgrow, hstart, -⟩ := dictGrow_frame hu
    rw [loopDone, inStep_self (hfsm.trans hf) (hphase.trans hp) (hgrow.trans hg) (hstart.trans hs)]
  rw [hdone]
  exact refines_sClass w

/-- R156 from the choice of the case on. -/
theorem refines_case {s : State} (hf : s.fsm = .sFetch) (hp : s.phase = .loop) (hg : s.grow = .gIdle)
    (hs : s.start = false) (c : CodeWord) (p : Str) :
    Refines 7 (enter .sClass (writeEntry .prevEntry p (latchWord c s)))
      (andThen (if present s c then caseA c (writeEntry .prevEntry p (latchWord c s))
        else caseB (writeEntry .prevEntry p (latchWord c s))) fun t => .next (afterOp .sFetch t)) := by
  have hclass : enter .sClass (writeEntry .prevEntry p (latchWord c s)) =
      inStep .sClass .gIdle (writeEntry .prevEntry p (latchWord c s)) := by
    rw [inStep, ← hg, ← hs]
    rfl
  rw [hclass]
  exact refines_case_of_inStep (w := writeEntry .prevEntry p (latchWord c s)) hf hp hg hs

end Sys2Proof.Machine

namespace Sys2Proof

open Machine

/-- Settles O48: the prelude is the same operation in both machines, and after it the finer states make up Case A or Case B
with its insertion. -/
theorem finerMachineRefines : Obligations.FinerMachineRefines := by
  intro s hf hp hg hci hlow hhigh
  have hfine : microStep s = fetchWord (consumeStart s) := if_pos hf
  have hcoarse : ∀ c, readCode s s.ci = .next c →
      step s = andThen (loopStep c (consumeStart s)) fun t => .next (afterOp .sFetch t) := fun c hr => by
    have hsel : select s = .next (.op (decodeLoopWord c)) := by simp [select, hf, hr]
    rw [step_of_op hsel, exec_decodeLoopWord_eq_loopStep (s := consumeStart s) hci hlow hhigh, hf]
  cases hr : readCode s s.ci with
  | fault r =>
    have hstop : fetchWord (consumeStart s) = .fault r := congrArg (andThen · _) hr
    have hsel : select s = .fault r := by simp [select, hf, hr]
    exact (refines_last (hfine.trans (hstop.trans (step_fault hsel).symm))).mono (by omega)
  | refused r => exact absurd hr (readCode_ne_refused s s.ci r)
  | next c =>
    have hword : fetchWord (consumeStart s) = prelude c (fun t => .next (enter .sClass t)) (consumeStart s) :=
      congrArg (andThen · _) hr
    rw [hcoarse c hr, loopStep]
    obtain ⟨t, ht, hpre⟩ | ⟨r, hpre⟩ | ⟨p, hpre⟩ := prelude_cases c (consumeStart s)
    · rw [hpre] at hword ⊢
      rw [andThen_next, afterOp_fault ht]
      exact (refines_last (hfine.trans hword)).mono (by omega)
    · rw [hpre] at hword ⊢
      exact (refines_last (hfine.trans hword)).mono (by omega)
    · rw [hpre] at hword ⊢
      exact Refines.of_next (hfine.trans hword) (refines_case (s := consumeStart s) hf hp hg rfl c p)

end Sys2Proof
end

section
/-! PROOF. Single operations and what they leave unchanged: the extractor (spec/40_code_extractor.md), the dictionary engine
(spec/41_dictionary_engine.md) and the output accumulator (spec/43_output_accumulator.md). -/

open Sys2Proof.Statements

namespace Sys2Proof

open Machine

/-- Settles O14: one update each. -/
theorem shortBuffers : Obligations.ShortBuffers := by
  intro s
  refine ⟨⟨_, rfl, ?_⟩, ⟨_, rfl, raised_raiseFault .malformedLength s.inLen s s.phase, rfl⟩, rfl⟩
  simp [SameHost, SameStatus, SameDict, SameIndex, SameOutput, SameControl]

/-- Settles O15: one cell of `CODES` is written. -/
theorem pairGivesOneWord : Obligations.PairGivesOneWord := by
  intro s w
  refine ⟨storePair w s, rfl, by simp, rfl, fun i hi => ?_, ?_⟩
  · rw [storePair_codes, cellsRead_put_other _ _ hi.symm]
  · simp [SameHost, SameStatus, SameDict, SameIndex, SameOutput, SameControl]

/-- Settles O16: two cells of `CODES` are written, the second after the first. -/
theorem tripleGivesTwoWords : Obligations.TripleGivesTwoWords := by
  intro s a b
  refine ⟨storeTriple a b s, rfl, ?_, ?_, fun i h0 h1 => ?_, rfl, rfl, rfl, rfl, ?_⟩
  · rw [storeTriple_codes, cellsRead_put_other _ _ (by omega), cellsRead_put_same]
    rfl
  · rw [storeTriple_codes, cellsRead_put_same]
    rfl
  · rw [storeTriple_codes, cellsRead_put_other _ _ h1.symm, cellsRead_put_other _ _ h0.symm]
  · simp [SameHost, SameStatus, SameDict, SameIndex, SameOutput, SameControl]

/-- Settles O17: the cell of the last code word is written, if there is one. -/
theorem tailReplacesLastWord : Obligations.TailReplacesLastWord := by
  intro s w
  refine ⟨fun hn => ?_, fun hn => by simp [exec, execXTail1, hn]⟩
  obtain ⟨n, hk⟩ := Nat.exists_eq_add_of_le' hn
  have hexec : exec (.xTail1 w) s = .next (storeTail n w s) := by simp [exec, execXTail1, hk]
  have hlast : s.nCodes - 1 = n := by omega
  rw [hlast]
  refine ⟨storeTail n w s, hexec, by simp, fun i hi => ?_, ?_⟩
  · rw [storeTail_codes, cellsRead_put_other _ _ hi.symm]
  · simp [SameHost, SameStatus, SameDict, SameIndex, SameOutput, SameControl]

/-- Settles O21: slot by slot below 256. -/
theorem initGivesIdentity : Obligations.InitGivesIdentity := by
  intro s
  refine ⟨dictInit s, rfl, dictInit_dictSize s, fun k hk => ?_, fun k hk => ?_, ?_⟩
  · rw [dictInit_dict, dictRead_copySnap, if_pos hk, snap]
  · rw [dictInit_dict, dictRead_copySnap, if_neg (Nat.not_lt.2 hk)]
  · simp [SameHost, SameStatus, SameExtractor, SameIndex, SameOutput, SameControl]

/-- Settles O22: a live written slot is read, and one register is written. -/
theorem lookupReturnsEntry : Obligations.LookupReturnsEntry := by
  intro s dst k e hk he
  have hl : lookup s k.toNat = .next e := lookup_eq_next.2 ⟨hk, he⟩
  refine ⟨writeEntry dst e s, ?_, ?_⟩
  · rw [exec, execDictLookup, hl, andThen_next]
  · cases dst <;> rfl

/-- Settles O37: OUT.APPEND writes at the end of `OUT`, the other two write registers and an empty space. -/
theorem accumulatorOperations : Obligations.AccumulatorOperations := by
  intro s e
  refine ⟨rfl, ⟨outAppend e s, rfl, appended_of_write rfl rfl, ?_⟩, rfl⟩
  simp [SameHost, SameStatus, SameExtractor, SameDict, SameIndex, SameControl]

/-- Settles O38: OUT.DISCARD writes the accumulator alone. -/
theorem discardInvalidates : Obligations.DiscardInvalidates := by
  intro s
  refine ⟨outDiscard s, rfl, ?_⟩
  simp [SameHost, SameExtractor, SameDict, SameIndex]

end Sys2Proof
end

section
/-! PROOF. The fetch: the operation a step runs where the block stands at a word of the stream (spec/44_run_control.md R156),
and where the model stops (spec/20_memory.md R56, spec/10_state.md R31). -/

open Sys2Proof.Statements

namespace Sys2Proof.Machine

/-- What is decoded where the block stands is what the fetch selects. -/
theorem select_of_standsAt {s : State} {slot : Slot} {bytes : List Byte} {i : Instr} (h : StandsAt s slot bytes)
    (hd : decode slot bytes = .ok i) : select s = .next (.op i) := by
  cases h with
  | triple b0 b1 b2 hf h0 h1 h2 =>
    obtain rfl := Except.ok.inj hd
    have hp : readPair s (s.bi + 1) = .next (b1, b2) := readPair_eq_next.2 ⟨h1, h2⟩
    simp [select, selectTriple, hf, h0, hp]
  | pair hi lo hf h0 h1 =>
    obtain rfl := Except.ok.inj hd
    have hp : readPair s 0 = .next (hi, lo) := readPair_eq_next.2 ⟨h0, h1⟩
    simp [select, selectPair, hf, hp]
  | tail1 hi lo hf hn h4 h0 h1 =>
    obtain rfl := Except.ok.inj hd
    have hp : readPair s (s.inLen - 2) = .next (hi, lo) :=
      readPair_eq_next.2 ⟨h0, by rwa [show s.inLen - 2 + 1 = s.inLen - 1 by omega]⟩
    simp [select, selectTail, hf, hn, Nat.not_lt.2 h4, hp]
  | seedWord hi lo hf h0 =>
    obtain rfl := Except.ok.inj hd
    simp [select, hf, h0]
  | loopWord hi lo hf h0 =>
    obtain rfl := Except.ok.inj hd
    simp [select, hf, h0]

/-- A decoder step stops where its code word cannot be read. -/
theorem step_stops_at_word {s : State} {r : Fault} (hf : s.fsm = .sSeed ∨ s.fsm = .sFetch)
    (hr : readCode s s.ci = .fault r) : step s = .fault r := by
  refine step_fault ?_
  obtain hf | hf := hf <;> simp [select, hf, hr]

theorem exists_readIn_of_written {s : State} {a : Nat} (ha : a < s.inLen) (h : cellsRead s.inMem a ≠ none) :
    ∃ b, readIn s a = .next b := by
  obtain ⟨b, hb⟩ := Option.ne_none_iff_exists'.1 h
  exact ⟨b, readIn_eq_next.2 ⟨ha, hb⟩⟩

/-- X.TRIPLE stops at its first unwritten byte, in the order of R81. -/
theorem step_stops_at_triple {s : State} {d : Nat} (hd : d < 3) (hf : s.fsm = .sXwalk) (hlen : s.bi + d < s.inLen)
    (hw : ∀ j, j < d → cellsRead s.inMem (s.bi + j) ≠ none) (hn : cellsRead s.inMem (s.bi + d) = none) :
    step s = .fault (.readUnwritten .input (s.bi + d)) := by
  have hstop := readIn_unwritten hlen hn
  refine step_fault ?_
  obtain rfl | rfl | rfl : d = 0 ∨ d = 1 ∨ d = 2 := by omega
  · rw [Nat.add_zero] at hstop
    simp [select, selectTriple, hf, hstop]
  · obtain ⟨b0, h0⟩ := exists_readIn_of_written (a := s.bi) (by omega) (hw 0 (by omega))
    simp [select, selectTriple, readPair, hf, h0, hstop]
  · obtain ⟨b0, h0⟩ := exists_readIn_of_written (a := s.bi) (by omega) (hw 0 (by omega))
    obtain ⟨b1, h1⟩ := exists_readIn_of_written (a := s.bi + 1) (by omega) (hw 1 (by omega))
    simp [select, selectTriple, readPair, hf, h0, h1, hstop]

end Sys2Proof.Machine

namespace Sys2Proof

open Machine

/-- Settles O45: the fetch decodes the word where the block stands. -/
theorem stepRunsDecodedWord : Obligations.StepRunsDecodedWord :=
  fun _ _ _ _ h hd _ => step_of_op (select_of_standsAt h hd)

/-- Settles O44: each stop is that of the read or the write that has no cell, or no value. -/
theorem outOfRangeAccessStops : Obligations.OutOfRangeAccessStops := by
  intro s
  refine ⟨fun dst k hk => ?_, fun c hp ⟨p, hpe⟩ hc => ?_, fun e h => ?_, fun dst k hk h => ?_, fun hf => ⟨fun h => ?_,
    fun hlt h => ?_⟩, fun d hd hf hlen hw hn => step_stops_at_triple hd hf hlen hw hn⟩
  · rw [exec, execDictLookup, lookup_absent hk, andThen_fault]
  · have hl : lookup (writeEntry .prevEntry p (latchWord c s)) c.toNat = .fault (.readOutside .dict c.toNat) :=
      lookup_absent hc
    rw [exec, execDKnown, prelude_live hp hpe, caseA, formKnown, hl, andThen_fault, andThen_fault]
  · rw [exec, execDictInsert, dictInsert, if_neg (Nat.not_lt.2 h)]
  · rw [exec, execDictLookup, lookup_unwritten hk h, andThen_fault]
  · exact step_stops_at_word hf (readCode_absent h)
  · exact step_stops_at_word hf (readCode_unwritten hlt h)

end Sys2Proof
end

section
/-! PROOF. The state after power-on (spec/70_reset_and_hazards.md R200) and the host's port (spec/10_state.md R27 to R30,
spec/43_output_accumulator.md R145, spec/70_reset_and_hazards.md R206, R208). -/

open Sys2Proof.Statements

namespace Sys2Proof.Machine

theorem dictRead_nil {k : Nat} (h : k < 256) : dictRead [] k = some (snap k) := if_pos h

/-! ### The fields of `STATUS` (R29) -/

theorem status_phase (v : BitVec 1) (f p : BitVec 3) : ((v ++ f) ++ p).extractLsb' 0 3 = p :=
  BitVec.extractLsb'_append_eq_right

theorem status_fault (v : BitVec 1) (f p : BitVec 3) :
    ((v ++ f) ++ p).extractLsb' 3 3 = f := by
  rw [BitVec.extractLsb'_append_eq_of_le (Nat.le_refl 3)]
  exact BitVec.extractLsb'_append_eq_right

theorem status_valid (v : Bool) (f p : BitVec 3) :
    ((BitVec.ofBool v ++ f) ++ p).getLsbD 6 = v := by
  rw [BitVec.getLsbD_append, BitVec.getLsbD_append]
  simp

theorem faultBits_ne_zero (f : Option RunFault) : faultBits f ≠ 0 ↔ f ≠ none := by
  cases f with
  | none => simp [faultBits]
  | some f => cases f <;> simp [faultBits]

end Sys2Proof.Machine

namespace Sys2Proof

open Machine

/-- Settles O9: the registers and the first 256 entries of the state after power-on. -/
theorem powerOnValues : Obligations.PowerOnValues :=
  ⟨rfl, rfl, rfl, rfl, rfl, fun _ hk => dictRead_nil hk⟩

/-- Settles O54: the block waits, and every space is empty. -/
theorem powerOnIsSound : Obligations.PowerOnIsSound :=
  Progress.sound (progress_of_not_decoding rfl nofun nofun nofun fun _ => Filled.zero _) reset_canonical
    ⟨controlOk_of_phase nofun rfl fun _ => rfl, by simp [StatusOk, State.reset]⟩ (Filled.zero _)

/-- Settles O43: each field by its bits. -/
theorem statusWord : Obligations.StatusWord := by
  intro s
  have hfault : (hostReadStatus s).extractLsb' 3 3 = faultBits s.faultCode := status_fault ..
  have hvalid : (hostReadStatus s).getLsbD 6 = s.outValid := status_valid ..
  refine ⟨status_phase .., hfault, hvalid, by decide, by decide, fun ⟨hf, hv⟩ => ?_⟩
  rw [hfault, hvalid, faultBits_ne_zero]
  exact ⟨hf, hv⟩

/-- Settles O57: while the host may write, each move is its update. -/
theorem hostWritesItsRegisters : Obligations.HostWritesItsRegisters := by
  intro s hq hs
  have hmay : hostMayWrite s = true := hostMayWrite_iff.2 ⟨hq, hs⟩
  refine ⟨fun e => if_pos hmay, fun w => if_pos hmay, fun n => if_pos hmay, fun a b => ?_, fun bytes e => ?_⟩
  · exact ⟨_, if_pos hmay, rfl, cellsRead_put_same .., fun k hk => cellsRead_put_other _ _ hk.symm⟩
  · exact ⟨_, if_pos hmay, memReadBytes_write .., rfl⟩

/-- Settles O58: the port refuses every move but a write of `CTRL` that keeps SRC_OK. -/
theorem hostWritesNothingInARun : Obligations.HostWritesNothingInARun := by
  intro s hbusy
  have hno : ¬ hostMayWrite s = true := by simp [hostMayWrite_eq_false.2 hbusy]
  refine ⟨fun e => if_neg hno, fun n => if_neg hno, fun a b => if_neg hno, fun bytes e => if_neg hno, fun w => ⟨fun h => ?_,
    fun h => ?_⟩⟩
  · exact (if_neg hno).trans (if_pos h)
  · exact (if_neg hno).trans (if_neg h)

/-- Settles O59: in DONE the bytes read one by one are those of the string read as a whole. -/
theorem hostReadsItsPort : Obligations.HostReadsItsPort := by
  intro s
  refine ⟨rfl, rfl, fun hp => ⟨if_pos hp, fun i hi => if_pos ⟨hp, hi⟩, fun out hout => ?_⟩,
    fun hp => ⟨if_neg hp, fun i => if_neg fun h => hp h.1, if_neg hp⟩, fun hp => if_pos hp, fun hp => if_neg hp⟩
  rw [hostReadResult, if_pos hp] at hout
  obtain ⟨hlen, hbytes⟩ := (memReadBytes_eq_some _ _ _ _).1 hout
  refine ⟨hlen, fun i => ?_⟩
  by_cases hi : i < s.outLen
  · have hbyte := hbytes i hi
    rw [Nat.zero_add] at hbyte
    rw [hostReadOut, if_pos ⟨hp, hi⟩, hbyte]
  · rw [hostReadOut, if_neg fun h => hi h.2, List.getElem?_eq_none (by omega)]

end Sys2Proof
end
